-- ==== Sys2Proof/Word.lean ====
section
/-! DEFINITION. The word types of the machine: bytes on an 8-bit bus, 16-bit addresses (R8, R11). -/

namespace Sys2Proof

/-- A byte: A, X, Y, SP and every bus datum (R8, R11). -/
abbrev Byte := BitVec 8

/-- A word: PC and every CPU bus address, arithmetic modulo 65536 (R8, R11). -/
abbrev Word := BitVec 16

end Sys2Proof
end

