-- ==== Sys2Proof/Machine/Bits.lean ====
section
/-! DEFINITION. Bit fields, extensions and byte order (R11, R63). -/

namespace Sys2Proof.Machine

/-- The word `hi:lo` (R11); every 16-bit quantity is assembled with the low byte at the lower address (R63). -/
def wordOf (hi lo : Byte) : Word := hi ++ lo

/-- `w[15:8]`, which is also the page of an address (R11, 00_scope.md glossary). -/
def hiByte (w : Word) : Byte := w.extractLsb' 8 8

/-- `w[7:0]` (R11). -/
def loByte (w : Word) : Byte := w.extractLsb' 0 8

/-- `zext_16` (R11). -/
def zext16 (b : Byte) : Word := b.setWidth 16

/-- `sext_16` (R11). -/
def sext16 (b : Byte) : Word := b.signExtend 16

/-- The bit of a flag, 0 or 1, in a field of width `w`. -/
def bit (w : Nat) (b : Bool) : BitVec w := if b then 1 else 0

end Sys2Proof.Machine
end

