-- ==== Sys2Proof/Syntax.lean ====
section
/-! DEFINITION. The instructions: one constructor for each assigned row of spec/opcode_table.json (R106), carrying its
operand bytes as R103 assembles them, and one for the 105 unassigned rows (R107, log 17). -/

namespace Sys2Proof

/-- An instruction. A name is the row's mnemonic, then its mode: `Imm` immediate, `Zp`, `ZpX`, `ZpY` zero page, `Abs`,
`AbsX`, `AbsY` absolute, `Ind` indirect, `IndX` (zp,X), `IndY` (zp),Y, `Acc` accumulator. -/
inductive Instr where
  /-- `ADC ($nn,X)`, opcode 0x61 (R161). -/
  | adcIndX (zp : Byte)
  /-- `ADC $nn`, opcode 0x65 (R161). -/
  | adcZp (zp : Byte)
  /-- `ADC #$nn`, opcode 0x69 (R161). -/
  | adcImm (imm : Byte)
  /-- `ADC $hhll`, opcode 0x6D (R161). -/
  | adcAbs (addr : Word)
  /-- `ADC ($nn),Y`, opcode 0x71 (R161). -/
  | adcIndY (zp : Byte)
  /-- `ADC $nn,X`, opcode 0x75 (R161). -/
  | adcZpX (zp : Byte)
  /-- `ADC $hhll,Y`, opcode 0x79 (R161). -/
  | adcAbsY (addr : Word)
  /-- `ADC $hhll,X`, opcode 0x7D (R161). -/
  | adcAbsX (addr : Word)
  /-- `SBC ($nn,X)`, opcode 0xE1 (R162). -/
  | sbcIndX (zp : Byte)
  /-- `SBC $nn`, opcode 0xE5 (R162). -/
  | sbcZp (zp : Byte)
  /-- `SBC #$nn`, opcode 0xE9 (R162). -/
  | sbcImm (imm : Byte)
  /-- `SBC $hhll`, opcode 0xED (R162). -/
  | sbcAbs (addr : Word)
  /-- `SBC ($nn),Y`, opcode 0xF1 (R162). -/
  | sbcIndY (zp : Byte)
  /-- `SBC $nn,X`, opcode 0xF5 (R162). -/
  | sbcZpX (zp : Byte)
  /-- `SBC $hhll,Y`, opcode 0xF9 (R162). -/
  | sbcAbsY (addr : Word)
  /-- `SBC $hhll,X`, opcode 0xFD (R162). -/
  | sbcAbsX (addr : Word)
  /-- `CMP ($nn,X)`, opcode 0xC1 (R163). -/
  | cmpIndX (zp : Byte)
  /-- `CMP $nn`, opcode 0xC5 (R163). -/
  | cmpZp (zp : Byte)
  /-- `CMP #$nn`, opcode 0xC9 (R163). -/
  | cmpImm (imm : Byte)
  /-- `CMP $hhll`, opcode 0xCD (R163). -/
  | cmpAbs (addr : Word)
  /-- `CMP ($nn),Y`, opcode 0xD1 (R163). -/
  | cmpIndY (zp : Byte)
  /-- `CMP $nn,X`, opcode 0xD5 (R163). -/
  | cmpZpX (zp : Byte)
  /-- `CMP $hhll,Y`, opcode 0xD9 (R163). -/
  | cmpAbsY (addr : Word)
  /-- `CMP $hhll,X`, opcode 0xDD (R163). -/
  | cmpAbsX (addr : Word)
  /-- `CPX #$nn`, opcode 0xE0 (R164). -/
  | cpxImm (imm : Byte)
  /-- `CPX $nn`, opcode 0xE4 (R164). -/
  | cpxZp (zp : Byte)
  /-- `CPX $hhll`, opcode 0xEC (R164). -/
  | cpxAbs (addr : Word)
  /-- `CPY #$nn`, opcode 0xC0 (R165). -/
  | cpyImm (imm : Byte)
  /-- `CPY $nn`, opcode 0xC4 (R165). -/
  | cpyZp (zp : Byte)
  /-- `CPY $hhll`, opcode 0xCC (R165). -/
  | cpyAbs (addr : Word)
  /-- `AND ($nn,X)`, opcode 0x21 (R166). -/
  | andIndX (zp : Byte)
  /-- `AND $nn`, opcode 0x25 (R166). -/
  | andZp (zp : Byte)
  /-- `AND #$nn`, opcode 0x29 (R166). -/
  | andImm (imm : Byte)
  /-- `AND $hhll`, opcode 0x2D (R166). -/
  | andAbs (addr : Word)
  /-- `AND ($nn),Y`, opcode 0x31 (R166). -/
  | andIndY (zp : Byte)
  /-- `AND $nn,X`, opcode 0x35 (R166). -/
  | andZpX (zp : Byte)
  /-- `AND $hhll,Y`, opcode 0x39 (R166). -/
  | andAbsY (addr : Word)
  /-- `AND $hhll,X`, opcode 0x3D (R166). -/
  | andAbsX (addr : Word)
  /-- `ORA ($nn,X)`, opcode 0x01 (R167). -/
  | oraIndX (zp : Byte)
  /-- `ORA $nn`, opcode 0x05 (R167). -/
  | oraZp (zp : Byte)
  /-- `ORA #$nn`, opcode 0x09 (R167). -/
  | oraImm (imm : Byte)
  /-- `ORA $hhll`, opcode 0x0D (R167). -/
  | oraAbs (addr : Word)
  /-- `ORA ($nn),Y`, opcode 0x11 (R167). -/
  | oraIndY (zp : Byte)
  /-- `ORA $nn,X`, opcode 0x15 (R167). -/
  | oraZpX (zp : Byte)
  /-- `ORA $hhll,Y`, opcode 0x19 (R167). -/
  | oraAbsY (addr : Word)
  /-- `ORA $hhll,X`, opcode 0x1D (R167). -/
  | oraAbsX (addr : Word)
  /-- `EOR ($nn,X)`, opcode 0x41 (R168). -/
  | eorIndX (zp : Byte)
  /-- `EOR $nn`, opcode 0x45 (R168). -/
  | eorZp (zp : Byte)
  /-- `EOR #$nn`, opcode 0x49 (R168). -/
  | eorImm (imm : Byte)
  /-- `EOR $hhll`, opcode 0x4D (R168). -/
  | eorAbs (addr : Word)
  /-- `EOR ($nn),Y`, opcode 0x51 (R168). -/
  | eorIndY (zp : Byte)
  /-- `EOR $nn,X`, opcode 0x55 (R168). -/
  | eorZpX (zp : Byte)
  /-- `EOR $hhll,Y`, opcode 0x59 (R168). -/
  | eorAbsY (addr : Word)
  /-- `EOR $hhll,X`, opcode 0x5D (R168). -/
  | eorAbsX (addr : Word)
  /-- `BIT $nn`, opcode 0x24 (R169). -/
  | bitZp (zp : Byte)
  /-- `BIT $hhll`, opcode 0x2C (R169). -/
  | bitAbs (addr : Word)
  /-- `ASL $nn`, opcode 0x06 (R181). -/
  | aslZp (zp : Byte)
  /-- `ASL A`, opcode 0x0A (R181). -/
  | aslAcc
  /-- `ASL $hhll`, opcode 0x0E (R181). -/
  | aslAbs (addr : Word)
  /-- `ASL $nn,X`, opcode 0x16 (R181). -/
  | aslZpX (zp : Byte)
  /-- `ASL $hhll,X`, opcode 0x1E (R181). -/
  | aslAbsX (addr : Word)
  /-- `LSR $nn`, opcode 0x46 (R182). -/
  | lsrZp (zp : Byte)
  /-- `LSR A`, opcode 0x4A (R182). -/
  | lsrAcc
  /-- `LSR $hhll`, opcode 0x4E (R182). -/
  | lsrAbs (addr : Word)
  /-- `LSR $nn,X`, opcode 0x56 (R182). -/
  | lsrZpX (zp : Byte)
  /-- `LSR $hhll,X`, opcode 0x5E (R182). -/
  | lsrAbsX (addr : Word)
  /-- `ROL $nn`, opcode 0x26 (R183). -/
  | rolZp (zp : Byte)
  /-- `ROL A`, opcode 0x2A (R183). -/
  | rolAcc
  /-- `ROL $hhll`, opcode 0x2E (R183). -/
  | rolAbs (addr : Word)
  /-- `ROL $nn,X`, opcode 0x36 (R183). -/
  | rolZpX (zp : Byte)
  /-- `ROL $hhll,X`, opcode 0x3E (R183). -/
  | rolAbsX (addr : Word)
  /-- `ROR $nn`, opcode 0x66 (R184). -/
  | rorZp (zp : Byte)
  /-- `ROR A`, opcode 0x6A (R184). -/
  | rorAcc
  /-- `ROR $hhll`, opcode 0x6E (R184). -/
  | rorAbs (addr : Word)
  /-- `ROR $nn,X`, opcode 0x76 (R184). -/
  | rorZpX (zp : Byte)
  /-- `ROR $hhll,X`, opcode 0x7E (R184). -/
  | rorAbsX (addr : Word)
  /-- `INC $nn`, opcode 0xE6 (R185). -/
  | incZp (zp : Byte)
  /-- `INC $hhll`, opcode 0xEE (R185). -/
  | incAbs (addr : Word)
  /-- `INC $nn,X`, opcode 0xF6 (R185). -/
  | incZpX (zp : Byte)
  /-- `INC $hhll,X`, opcode 0xFE (R185). -/
  | incAbsX (addr : Word)
  /-- `DEC $nn`, opcode 0xC6 (R186). -/
  | decZp (zp : Byte)
  /-- `DEC $hhll`, opcode 0xCE (R186). -/
  | decAbs (addr : Word)
  /-- `DEC $nn,X`, opcode 0xD6 (R186). -/
  | decZpX (zp : Byte)
  /-- `DEC $hhll,X`, opcode 0xDE (R186). -/
  | decAbsX (addr : Word)
  /-- `INX`, opcode 0xE8 (R187). -/
  | inx
  /-- `INY`, opcode 0xC8 (R188). -/
  | iny
  /-- `DEX`, opcode 0xCA (R189). -/
  | dex
  /-- `DEY`, opcode 0x88 (R190). -/
  | dey
  /-- `BPL label`, opcode 0x10 (R201). -/
  | bpl (rel : Byte)
  /-- `BMI label`, opcode 0x30 (R202). -/
  | bmi (rel : Byte)
  /-- `BVC label`, opcode 0x50 (R203). -/
  | bvc (rel : Byte)
  /-- `BVS label`, opcode 0x70 (R204). -/
  | bvs (rel : Byte)
  /-- `BCC label`, opcode 0x90 (R205). -/
  | bcc (rel : Byte)
  /-- `BCS label`, opcode 0xB0 (R206). -/
  | bcs (rel : Byte)
  /-- `BNE label`, opcode 0xD0 (R207). -/
  | bne (rel : Byte)
  /-- `BEQ label`, opcode 0xF0 (R208). -/
  | beq (rel : Byte)
  /-- `PHA`, opcode 0x48 (R211). -/
  | pha
  /-- `PHP`, opcode 0x08 (R212). -/
  | php
  /-- `PLA`, opcode 0x68 (R213). -/
  | pla
  /-- `PLP`, opcode 0x28 (R214). -/
  | plp
  /-- `JSR $hhll`, opcode 0x20 (R215). -/
  | jsr (addr : Word)
  /-- `RTS`, opcode 0x60 (R216). -/
  | rts
  /-- `JMP $hhll`, opcode 0x4C (R217). -/
  | jmpAbs (addr : Word)
  /-- `JMP ($hhll)`, opcode 0x6C (R217). -/
  | jmpInd (ptr : Word)
  /-- `BRK`, opcode 0x00 (R218). -/
  | brk
  /-- `RTI`, opcode 0x40 (R219). -/
  | rti
  /-- `LDA ($nn,X)`, opcode 0xA1 (R230). -/
  | ldaIndX (zp : Byte)
  /-- `LDA $nn`, opcode 0xA5 (R230). -/
  | ldaZp (zp : Byte)
  /-- `LDA #$nn`, opcode 0xA9 (R230). -/
  | ldaImm (imm : Byte)
  /-- `LDA $hhll`, opcode 0xAD (R230). -/
  | ldaAbs (addr : Word)
  /-- `LDA ($nn),Y`, opcode 0xB1 (R230). -/
  | ldaIndY (zp : Byte)
  /-- `LDA $nn,X`, opcode 0xB5 (R230). -/
  | ldaZpX (zp : Byte)
  /-- `LDA $hhll,Y`, opcode 0xB9 (R230). -/
  | ldaAbsY (addr : Word)
  /-- `LDA $hhll,X`, opcode 0xBD (R230). -/
  | ldaAbsX (addr : Word)
  /-- `LDX #$nn`, opcode 0xA2 (R231). -/
  | ldxImm (imm : Byte)
  /-- `LDX $nn`, opcode 0xA6 (R231). -/
  | ldxZp (zp : Byte)
  /-- `LDX $hhll`, opcode 0xAE (R231). -/
  | ldxAbs (addr : Word)
  /-- `LDX $nn,Y`, opcode 0xB6 (R231). -/
  | ldxZpY (zp : Byte)
  /-- `LDX $hhll,Y`, opcode 0xBE (R231). -/
  | ldxAbsY (addr : Word)
  /-- `LDY #$nn`, opcode 0xA0 (R232). -/
  | ldyImm (imm : Byte)
  /-- `LDY $nn`, opcode 0xA4 (R232). -/
  | ldyZp (zp : Byte)
  /-- `LDY $hhll`, opcode 0xAC (R232). -/
  | ldyAbs (addr : Word)
  /-- `LDY $nn,X`, opcode 0xB4 (R232). -/
  | ldyZpX (zp : Byte)
  /-- `LDY $hhll,X`, opcode 0xBC (R232). -/
  | ldyAbsX (addr : Word)
  /-- `STA ($nn,X)`, opcode 0x81 (R233). -/
  | staIndX (zp : Byte)
  /-- `STA $nn`, opcode 0x85 (R233). -/
  | staZp (zp : Byte)
  /-- `STA $hhll`, opcode 0x8D (R233). -/
  | staAbs (addr : Word)
  /-- `STA ($nn),Y`, opcode 0x91 (R233). -/
  | staIndY (zp : Byte)
  /-- `STA $nn,X`, opcode 0x95 (R233). -/
  | staZpX (zp : Byte)
  /-- `STA $hhll,Y`, opcode 0x99 (R233). -/
  | staAbsY (addr : Word)
  /-- `STA $hhll,X`, opcode 0x9D (R233). -/
  | staAbsX (addr : Word)
  /-- `STX $nn`, opcode 0x86 (R234). -/
  | stxZp (zp : Byte)
  /-- `STX $hhll`, opcode 0x8E (R234). -/
  | stxAbs (addr : Word)
  /-- `STX $nn,Y`, opcode 0x96 (R234). -/
  | stxZpY (zp : Byte)
  /-- `STY $nn`, opcode 0x84 (R235). -/
  | styZp (zp : Byte)
  /-- `STY $hhll`, opcode 0x8C (R235). -/
  | styAbs (addr : Word)
  /-- `STY $nn,X`, opcode 0x94 (R235). -/
  | styZpX (zp : Byte)
  /-- `TAX`, opcode 0xAA (R236). -/
  | tax
  /-- `TAY`, opcode 0xA8 (R237). -/
  | tay
  /-- `TXA`, opcode 0x8A (R238). -/
  | txa
  /-- `TYA`, opcode 0x98 (R239). -/
  | tya
  /-- `TSX`, opcode 0xBA (R240). -/
  | tsx
  /-- `TXS`, opcode 0x9A (R241). -/
  | txs
  /-- `CLC`, opcode 0x18 (R242). -/
  | clc
  /-- `SEC`, opcode 0x38 (R243). -/
  | sec
  /-- `CLI`, opcode 0x58 (R244). -/
  | cli
  /-- `SEI`, opcode 0x78 (R245). -/
  | sei
  /-- `CLV`, opcode 0xB8 (R246). -/
  | clv
  /-- `CLD`, opcode 0xD8 (R247). -/
  | cld
  /-- `SED`, opcode 0xF8 (R248). -/
  | sed
  /-- `NOP`, opcode 0xEA (R249). -/
  | nop
  /-- An unassigned opcode byte (R107, R270). -/
  | unassigned (op : Byte)
  deriving DecidableEq, Repr

end Sys2Proof
end

