-- ==== Sys2Proof/WellFormed.lean ====
section
/-! DEFINITION. Which instructions are well formed: operand fields are exact by their types, so the one check is that an
`unassigned` instruction carries a byte the InstructionTable leaves unassigned (R107). -/

namespace Sys2Proof

/-- The 105 unassigned opcode bytes, as R107 lists them. -/
def unassignedOpcodes : List Byte :=
  [0x02, 0x03, 0x04, 0x07, 0x0B, 0x0C, 0x0F, 0x12, 0x13, 0x14, 0x17, 0x1A, 0x1B, 0x1C, 0x1F] ++
  [0x22, 0x23, 0x27, 0x2B, 0x2F, 0x32, 0x33, 0x34, 0x37, 0x3A, 0x3B, 0x3C, 0x3F, 0x42, 0x43] ++
  [0x44, 0x47, 0x4B, 0x4F, 0x52, 0x53, 0x54, 0x57, 0x5A, 0x5B, 0x5C, 0x5F, 0x62, 0x63, 0x64] ++
  [0x67, 0x6B, 0x6F, 0x72, 0x73, 0x74, 0x77, 0x7A, 0x7B, 0x7C, 0x7F, 0x80, 0x82, 0x83, 0x87] ++
  [0x89, 0x8B, 0x8F, 0x92, 0x93, 0x97, 0x9B, 0x9C, 0x9E, 0x9F, 0xA3, 0xA7, 0xAB, 0xAF, 0xB2] ++
  [0xB3, 0xB7, 0xBB, 0xBF, 0xC2, 0xC3, 0xC7, 0xCB, 0xCF, 0xD2, 0xD3, 0xD4, 0xD7, 0xDA, 0xDB] ++
  [0xDC, 0xDF, 0xE2, 0xE3, 0xE7, 0xEB, 0xEF, 0xF2, 0xF3, 0xF4, 0xF7, 0xFA, 0xFB, 0xFC, 0xFF]

/-- Well-formedness (R100, R107). -/
def Instr.wf : Instr → Bool
  | .unassigned op => unassignedOpcodes.contains op
  | .adcIndX _ | .adcZp _ | .adcImm _ | .adcAbs _ | .adcIndY _ => true
  | .adcZpX _ | .adcAbsY _ | .adcAbsX _ | .sbcIndX _ | .sbcZp _ => true
  | .sbcImm _ | .sbcAbs _ | .sbcIndY _ | .sbcZpX _ | .sbcAbsY _ => true
  | .sbcAbsX _ | .cmpIndX _ | .cmpZp _ | .cmpImm _ | .cmpAbs _ => true
  | .cmpIndY _ | .cmpZpX _ | .cmpAbsY _ | .cmpAbsX _ | .cpxImm _ => true
  | .cpxZp _ | .cpxAbs _ | .cpyImm _ | .cpyZp _ | .cpyAbs _ => true
  | .andIndX _ | .andZp _ | .andImm _ | .andAbs _ | .andIndY _ => true
  | .andZpX _ | .andAbsY _ | .andAbsX _ | .oraIndX _ | .oraZp _ => true
  | .oraImm _ | .oraAbs _ | .oraIndY _ | .oraZpX _ | .oraAbsY _ => true
  | .oraAbsX _ | .eorIndX _ | .eorZp _ | .eorImm _ | .eorAbs _ => true
  | .eorIndY _ | .eorZpX _ | .eorAbsY _ | .eorAbsX _ | .bitZp _ => true
  | .bitAbs _ | .aslZp _ | .aslAcc | .aslAbs _ | .aslZpX _ => true
  | .aslAbsX _ | .lsrZp _ | .lsrAcc | .lsrAbs _ | .lsrZpX _ => true
  | .lsrAbsX _ | .rolZp _ | .rolAcc | .rolAbs _ | .rolZpX _ => true
  | .rolAbsX _ | .rorZp _ | .rorAcc | .rorAbs _ | .rorZpX _ => true
  | .rorAbsX _ | .incZp _ | .incAbs _ | .incZpX _ | .incAbsX _ => true
  | .decZp _ | .decAbs _ | .decZpX _ | .decAbsX _ | .inx => true
  | .iny | .dex | .dey | .bpl _ | .bmi _ => true
  | .bvc _ | .bvs _ | .bcc _ | .bcs _ | .bne _ => true
  | .beq _ | .pha | .php | .pla | .plp => true
  | .jsr _ | .rts | .jmpAbs _ | .jmpInd _ | .brk => true
  | .rti | .ldaIndX _ | .ldaZp _ | .ldaImm _ | .ldaAbs _ => true
  | .ldaIndY _ | .ldaZpX _ | .ldaAbsY _ | .ldaAbsX _ | .ldxImm _ => true
  | .ldxZp _ | .ldxAbs _ | .ldxZpY _ | .ldxAbsY _ | .ldyImm _ => true
  | .ldyZp _ | .ldyAbs _ | .ldyZpX _ | .ldyAbsX _ | .staIndX _ => true
  | .staZp _ | .staAbs _ | .staIndY _ | .staZpX _ | .staAbsY _ => true
  | .staAbsX _ | .stxZp _ | .stxAbs _ | .stxZpY _ | .styZp _ => true
  | .styAbs _ | .styZpX _ | .tax | .tay | .txa => true
  | .tya | .tsx | .txs | .clc | .sec => true
  | .cli | .sei | .clv | .cld | .sed => true
  | .nop => true

end Sys2Proof
end

