-- ==== Sys2Proof/Decode.lean ====
section
/-! DEFINITION. The InstructionTable (R100, R106), the decoder over bytes (R101 to R103) and the encoder. -/

namespace Sys2Proof

/-- An opcode's table entry: its instruction once the operand bytes of its format are known (R101). -/
inductive Entry where
  /-- F1: the opcode alone. -/
  | f1 (i : Instr)
  /-- F2: one operand byte follows. -/
  | f2 (build : Byte → Instr)
  /-- F3: a 16-bit operand follows, low byte first. -/
  | f3 (build : Word → Instr)

/-- The InstructionTable, all 256 opcode bytes (R106); a byte with no row is unassigned (R107). -/
def lookup (op : Byte) : Entry :=
  match op with
  | 0x00 => .f1 .brk
  | 0x01 => .f2 .oraIndX
  | 0x05 => .f2 .oraZp
  | 0x06 => .f2 .aslZp
  | 0x08 => .f1 .php
  | 0x09 => .f2 .oraImm
  | 0x0A => .f1 .aslAcc
  | 0x0D => .f3 .oraAbs
  | 0x0E => .f3 .aslAbs
  | 0x10 => .f2 .bpl
  | 0x11 => .f2 .oraIndY
  | 0x15 => .f2 .oraZpX
  | 0x16 => .f2 .aslZpX
  | 0x18 => .f1 .clc
  | 0x19 => .f3 .oraAbsY
  | 0x1D => .f3 .oraAbsX
  | 0x1E => .f3 .aslAbsX
  | 0x20 => .f3 .jsr
  | 0x21 => .f2 .andIndX
  | 0x24 => .f2 .bitZp
  | 0x25 => .f2 .andZp
  | 0x26 => .f2 .rolZp
  | 0x28 => .f1 .plp
  | 0x29 => .f2 .andImm
  | 0x2A => .f1 .rolAcc
  | 0x2C => .f3 .bitAbs
  | 0x2D => .f3 .andAbs
  | 0x2E => .f3 .rolAbs
  | 0x30 => .f2 .bmi
  | 0x31 => .f2 .andIndY
  | 0x35 => .f2 .andZpX
  | 0x36 => .f2 .rolZpX
  | 0x38 => .f1 .sec
  | 0x39 => .f3 .andAbsY
  | 0x3D => .f3 .andAbsX
  | 0x3E => .f3 .rolAbsX
  | 0x40 => .f1 .rti
  | 0x41 => .f2 .eorIndX
  | 0x45 => .f2 .eorZp
  | 0x46 => .f2 .lsrZp
  | 0x48 => .f1 .pha
  | 0x49 => .f2 .eorImm
  | 0x4A => .f1 .lsrAcc
  | 0x4C => .f3 .jmpAbs
  | 0x4D => .f3 .eorAbs
  | 0x4E => .f3 .lsrAbs
  | 0x50 => .f2 .bvc
  | 0x51 => .f2 .eorIndY
  | 0x55 => .f2 .eorZpX
  | 0x56 => .f2 .lsrZpX
  | 0x58 => .f1 .cli
  | 0x59 => .f3 .eorAbsY
  | 0x5D => .f3 .eorAbsX
  | 0x5E => .f3 .lsrAbsX
  | 0x60 => .f1 .rts
  | 0x61 => .f2 .adcIndX
  | 0x65 => .f2 .adcZp
  | 0x66 => .f2 .rorZp
  | 0x68 => .f1 .pla
  | 0x69 => .f2 .adcImm
  | 0x6A => .f1 .rorAcc
  | 0x6C => .f3 .jmpInd
  | 0x6D => .f3 .adcAbs
  | 0x6E => .f3 .rorAbs
  | 0x70 => .f2 .bvs
  | 0x71 => .f2 .adcIndY
  | 0x75 => .f2 .adcZpX
  | 0x76 => .f2 .rorZpX
  | 0x78 => .f1 .sei
  | 0x79 => .f3 .adcAbsY
  | 0x7D => .f3 .adcAbsX
  | 0x7E => .f3 .rorAbsX
  | 0x81 => .f2 .staIndX
  | 0x84 => .f2 .styZp
  | 0x85 => .f2 .staZp
  | 0x86 => .f2 .stxZp
  | 0x88 => .f1 .dey
  | 0x8A => .f1 .txa
  | 0x8C => .f3 .styAbs
  | 0x8D => .f3 .staAbs
  | 0x8E => .f3 .stxAbs
  | 0x90 => .f2 .bcc
  | 0x91 => .f2 .staIndY
  | 0x94 => .f2 .styZpX
  | 0x95 => .f2 .staZpX
  | 0x96 => .f2 .stxZpY
  | 0x98 => .f1 .tya
  | 0x99 => .f3 .staAbsY
  | 0x9A => .f1 .txs
  | 0x9D => .f3 .staAbsX
  | 0xA0 => .f2 .ldyImm
  | 0xA1 => .f2 .ldaIndX
  | 0xA2 => .f2 .ldxImm
  | 0xA4 => .f2 .ldyZp
  | 0xA5 => .f2 .ldaZp
  | 0xA6 => .f2 .ldxZp
  | 0xA8 => .f1 .tay
  | 0xA9 => .f2 .ldaImm
  | 0xAA => .f1 .tax
  | 0xAC => .f3 .ldyAbs
  | 0xAD => .f3 .ldaAbs
  | 0xAE => .f3 .ldxAbs
  | 0xB0 => .f2 .bcs
  | 0xB1 => .f2 .ldaIndY
  | 0xB4 => .f2 .ldyZpX
  | 0xB5 => .f2 .ldaZpX
  | 0xB6 => .f2 .ldxZpY
  | 0xB8 => .f1 .clv
  | 0xB9 => .f3 .ldaAbsY
  | 0xBA => .f1 .tsx
  | 0xBC => .f3 .ldyAbsX
  | 0xBD => .f3 .ldaAbsX
  | 0xBE => .f3 .ldxAbsY
  | 0xC0 => .f2 .cpyImm
  | 0xC1 => .f2 .cmpIndX
  | 0xC4 => .f2 .cpyZp
  | 0xC5 => .f2 .cmpZp
  | 0xC6 => .f2 .decZp
  | 0xC8 => .f1 .iny
  | 0xC9 => .f2 .cmpImm
  | 0xCA => .f1 .dex
  | 0xCC => .f3 .cpyAbs
  | 0xCD => .f3 .cmpAbs
  | 0xCE => .f3 .decAbs
  | 0xD0 => .f2 .bne
  | 0xD1 => .f2 .cmpIndY
  | 0xD5 => .f2 .cmpZpX
  | 0xD6 => .f2 .decZpX
  | 0xD8 => .f1 .cld
  | 0xD9 => .f3 .cmpAbsY
  | 0xDD => .f3 .cmpAbsX
  | 0xDE => .f3 .decAbsX
  | 0xE0 => .f2 .cpxImm
  | 0xE1 => .f2 .sbcIndX
  | 0xE4 => .f2 .cpxZp
  | 0xE5 => .f2 .sbcZp
  | 0xE6 => .f2 .incZp
  | 0xE8 => .f1 .inx
  | 0xE9 => .f2 .sbcImm
  | 0xEA => .f1 .nop
  | 0xEC => .f3 .cpxAbs
  | 0xED => .f3 .sbcAbs
  | 0xEE => .f3 .incAbs
  | 0xF0 => .f2 .beq
  | 0xF1 => .f2 .sbcIndY
  | 0xF5 => .f2 .sbcZpX
  | 0xF6 => .f2 .incZpX
  | 0xF8 => .f1 .sed
  | 0xF9 => .f3 .sbcAbsY
  | 0xFD => .f3 .sbcAbsX
  | 0xFE => .f3 .incAbsX
  | other => .f1 (.unassigned other)

/-- Why bytes do not decode. -/
inductive DecodeError where
  /-- No byte at all. -/
  | empty
  /-- The bytes end inside the operand of this opcode. -/
  | truncated (op : Byte)
  deriving DecidableEq, Repr

/-- Read one instruction and the bytes after it: byte 0 selects the entry, whose format says how many bytes follow
(R101, R102). -/
def decode (bytes : List Byte) : Except DecodeError (Instr × List Byte) :=
  match bytes with
  | [] => .error .empty
  | op :: rest =>
    match lookup op, rest with
    | .f1 i, rest => .ok (i, rest)
    | .f2 build, b1 :: rest => .ok (build b1, rest)
    | .f3 build, lo :: hi :: rest => .ok (build (Machine.wordOf hi lo), rest)
    | _, _ => .error (.truncated op)

/-- The bytes of an F3 instruction: opcode, low byte, high byte (R101, R103). -/
def encodeWord (op : Byte) (w : Word) : List Byte := [op, Machine.loByte w, Machine.hiByte w]

/-- The bytes of an instruction, from the encoding lines of 41 to 46. -/
def encode (i : Instr) : List Byte :=
  match i with
  | .adcIndX zp => [0x61, zp]
  | .adcZp zp => [0x65, zp]
  | .adcImm imm => [0x69, imm]
  | .adcAbs addr => encodeWord 0x6D addr
  | .adcIndY zp => [0x71, zp]
  | .adcZpX zp => [0x75, zp]
  | .adcAbsY addr => encodeWord 0x79 addr
  | .adcAbsX addr => encodeWord 0x7D addr
  | .sbcIndX zp => [0xE1, zp]
  | .sbcZp zp => [0xE5, zp]
  | .sbcImm imm => [0xE9, imm]
  | .sbcAbs addr => encodeWord 0xED addr
  | .sbcIndY zp => [0xF1, zp]
  | .sbcZpX zp => [0xF5, zp]
  | .sbcAbsY addr => encodeWord 0xF9 addr
  | .sbcAbsX addr => encodeWord 0xFD addr
  | .cmpIndX zp => [0xC1, zp]
  | .cmpZp zp => [0xC5, zp]
  | .cmpImm imm => [0xC9, imm]
  | .cmpAbs addr => encodeWord 0xCD addr
  | .cmpIndY zp => [0xD1, zp]
  | .cmpZpX zp => [0xD5, zp]
  | .cmpAbsY addr => encodeWord 0xD9 addr
  | .cmpAbsX addr => encodeWord 0xDD addr
  | .cpxImm imm => [0xE0, imm]
  | .cpxZp zp => [0xE4, zp]
  | .cpxAbs addr => encodeWord 0xEC addr
  | .cpyImm imm => [0xC0, imm]
  | .cpyZp zp => [0xC4, zp]
  | .cpyAbs addr => encodeWord 0xCC addr
  | .andIndX zp => [0x21, zp]
  | .andZp zp => [0x25, zp]
  | .andImm imm => [0x29, imm]
  | .andAbs addr => encodeWord 0x2D addr
  | .andIndY zp => [0x31, zp]
  | .andZpX zp => [0x35, zp]
  | .andAbsY addr => encodeWord 0x39 addr
  | .andAbsX addr => encodeWord 0x3D addr
  | .oraIndX zp => [0x01, zp]
  | .oraZp zp => [0x05, zp]
  | .oraImm imm => [0x09, imm]
  | .oraAbs addr => encodeWord 0x0D addr
  | .oraIndY zp => [0x11, zp]
  | .oraZpX zp => [0x15, zp]
  | .oraAbsY addr => encodeWord 0x19 addr
  | .oraAbsX addr => encodeWord 0x1D addr
  | .eorIndX zp => [0x41, zp]
  | .eorZp zp => [0x45, zp]
  | .eorImm imm => [0x49, imm]
  | .eorAbs addr => encodeWord 0x4D addr
  | .eorIndY zp => [0x51, zp]
  | .eorZpX zp => [0x55, zp]
  | .eorAbsY addr => encodeWord 0x59 addr
  | .eorAbsX addr => encodeWord 0x5D addr
  | .bitZp zp => [0x24, zp]
  | .bitAbs addr => encodeWord 0x2C addr
  | .aslZp zp => [0x06, zp]
  | .aslAcc => [0x0A]
  | .aslAbs addr => encodeWord 0x0E addr
  | .aslZpX zp => [0x16, zp]
  | .aslAbsX addr => encodeWord 0x1E addr
  | .lsrZp zp => [0x46, zp]
  | .lsrAcc => [0x4A]
  | .lsrAbs addr => encodeWord 0x4E addr
  | .lsrZpX zp => [0x56, zp]
  | .lsrAbsX addr => encodeWord 0x5E addr
  | .rolZp zp => [0x26, zp]
  | .rolAcc => [0x2A]
  | .rolAbs addr => encodeWord 0x2E addr
  | .rolZpX zp => [0x36, zp]
  | .rolAbsX addr => encodeWord 0x3E addr
  | .rorZp zp => [0x66, zp]
  | .rorAcc => [0x6A]
  | .rorAbs addr => encodeWord 0x6E addr
  | .rorZpX zp => [0x76, zp]
  | .rorAbsX addr => encodeWord 0x7E addr
  | .incZp zp => [0xE6, zp]
  | .incAbs addr => encodeWord 0xEE addr
  | .incZpX zp => [0xF6, zp]
  | .incAbsX addr => encodeWord 0xFE addr
  | .decZp zp => [0xC6, zp]
  | .decAbs addr => encodeWord 0xCE addr
  | .decZpX zp => [0xD6, zp]
  | .decAbsX addr => encodeWord 0xDE addr
  | .inx => [0xE8]
  | .iny => [0xC8]
  | .dex => [0xCA]
  | .dey => [0x88]
  | .bpl rel => [0x10, rel]
  | .bmi rel => [0x30, rel]
  | .bvc rel => [0x50, rel]
  | .bvs rel => [0x70, rel]
  | .bcc rel => [0x90, rel]
  | .bcs rel => [0xB0, rel]
  | .bne rel => [0xD0, rel]
  | .beq rel => [0xF0, rel]
  | .pha => [0x48]
  | .php => [0x08]
  | .pla => [0x68]
  | .plp => [0x28]
  | .jsr addr => encodeWord 0x20 addr
  | .rts => [0x60]
  | .jmpAbs addr => encodeWord 0x4C addr
  | .jmpInd ptr => encodeWord 0x6C ptr
  | .brk => [0x00]
  | .rti => [0x40]
  | .ldaIndX zp => [0xA1, zp]
  | .ldaZp zp => [0xA5, zp]
  | .ldaImm imm => [0xA9, imm]
  | .ldaAbs addr => encodeWord 0xAD addr
  | .ldaIndY zp => [0xB1, zp]
  | .ldaZpX zp => [0xB5, zp]
  | .ldaAbsY addr => encodeWord 0xB9 addr
  | .ldaAbsX addr => encodeWord 0xBD addr
  | .ldxImm imm => [0xA2, imm]
  | .ldxZp zp => [0xA6, zp]
  | .ldxAbs addr => encodeWord 0xAE addr
  | .ldxZpY zp => [0xB6, zp]
  | .ldxAbsY addr => encodeWord 0xBE addr
  | .ldyImm imm => [0xA0, imm]
  | .ldyZp zp => [0xA4, zp]
  | .ldyAbs addr => encodeWord 0xAC addr
  | .ldyZpX zp => [0xB4, zp]
  | .ldyAbsX addr => encodeWord 0xBC addr
  | .staIndX zp => [0x81, zp]
  | .staZp zp => [0x85, zp]
  | .staAbs addr => encodeWord 0x8D addr
  | .staIndY zp => [0x91, zp]
  | .staZpX zp => [0x95, zp]
  | .staAbsY addr => encodeWord 0x99 addr
  | .staAbsX addr => encodeWord 0x9D addr
  | .stxZp zp => [0x86, zp]
  | .stxAbs addr => encodeWord 0x8E addr
  | .stxZpY zp => [0x96, zp]
  | .styZp zp => [0x84, zp]
  | .styAbs addr => encodeWord 0x8C addr
  | .styZpX zp => [0x94, zp]
  | .tax => [0xAA]
  | .tay => [0xA8]
  | .txa => [0x8A]
  | .tya => [0x98]
  | .tsx => [0xBA]
  | .txs => [0x9A]
  | .clc => [0x18]
  | .sec => [0x38]
  | .cli => [0x58]
  | .sei => [0x78]
  | .clv => [0xB8]
  | .cld => [0xD8]
  | .sed => [0xF8]
  | .nop => [0xEA]
  | .unassigned op => [op]

/-- How many bytes an opcode's instruction has (R102). -/
def opcodeLength (op : Byte) : Nat :=
  match lookup op with
  | .f1 _ => 1
  | .f2 _ => 2
  | .f3 _ => 3

/-- The bytes of an instruction whose bits are `w`, bit 0 the least significant bit of byte 0: `nbits` bits, then zeros up to
the longest instruction (three bytes, R101). -/
def tableBytes (nbits w : Nat) : List Byte :=
  let bits := w % 2 ^ nbits
  [BitVec.ofNat 8 bits, BitVec.ofNat 8 (bits / 256), BitVec.ofNat 8 (bits / 65536)]

/-- The instruction the decoder reads from those bytes. -/
def decodeTableWord (nbits w : Nat) : Option Instr :=
  match decode (tableBytes nbits w) with
  | .ok (i, _) => some i
  | .error _ => none

end Sys2Proof
end

