-- ==== Sys2Proof/Machine/State.lean ====
section
/-! DEFINITION. The machine's state, all of it (10_state.md), as plain data, with why a step can stop and what reset
leaves (R28, R361, R362). -/

namespace Sys2Proof.Machine

/-- A programming error the spec calls fatal, with its reason (R24, R62). -/
inductive ProgrammingError where
  /-- A mapper offset at or beyond the length of its store, for a read of `addr` (R62, D28). -/
  | mapperOutOfRange (addr : Word)
  deriving DecidableEq, Repr

/-- Why an instruction has no meaning. -/
inductive Refusal where
  /-- Answered by an arm of `exec` whose instruction has no meaning yet; no arm of this model does. Safe: the machine
  stops where the hardware goes on. -/
  | notModelled (mnemonic : String)
  deriving DecidableEq, Repr

/-- A byte store: (index, byte) pairs, indexes strictly rising, no byte 0 listed. An index that is not listed holds 0
(log 2, 3 and 4). -/
abbrev Memory := List Host.Cell

/-- The six stored flags (R16, R18). Bits 5 and 4 of the status byte have no storage. -/
structure Flags where
  /-- Negative: bit 7 of a result. -/
  n : Bool
  /-- Signed overflow. -/
  v : Bool
  /-- Decimal mode, stored only (D1). -/
  d : Bool
  /-- Interrupt disable. -/
  i : Bool
  /-- Result is zero. -/
  z : Bool
  /-- Carry, or unsigned no-borrow. -/
  c : Bool
  deriving DecidableEq, Repr

/-- The two PRG sizes a load accepts (R59, R366). -/
inductive PrgBanks where
  /-- One 16 KiB bank, mirrored at 0xC000. -/
  | one
  /-- Two banks, straight through. -/
  | two
  deriving DecidableEq, Repr

/-- The cartridge (R26). The fixed mapper has no bank register (R60). -/
structure Cartridge where
  prgBanks : PrgBanks
  /-- PRG bytes by offset. -/
  prg : Memory
  /-- How many 8 KiB CHR units (R366, D26, D40). -/
  chrUnits : Nat
  /-- CHR bytes by offset. -/
  chr : Memory
  deriving DecidableEq, Repr

/-- The PPU state the CPU reaches over its bus (R27), with the open parameters that are plain data. -/
structure Ppu where
  ctrl : Byte
  mask : Byte
  status : Byte
  oam : Memory
  /-- Secondary OAM; no rule of the spec reads or writes it (log 19). -/
  oam2 : Memory
  oamAddr : Byte
  vram : Memory
  readBuf : Byte
  /-- The shared write-toggle. -/
  w : Bool
  v : BitVec 15
  t : BitVec 15
  fineX : BitVec 3
  /-- 0 to 261. -/
  scanline : Nat
  /-- 0 to 340. -/
  dot : Nat
  nmiPrev : Bool
  suppress : Bool
  oddFrame : Bool
  /-- The open parameter `STATUS_RACE_WINDOW` (R76, D19, log 10): (scanline, dot) pairs; no step changes it. -/
  raceWindow : List (Nat × Nat)
  /-- The open parameter `SPRITE_STATUS` (R74, D23, log 11): what the out-of-scope renderer gives status[6:5], one entry
  a tick; with none left the bits keep their value. -/
  spriteStatus : List (BitVec 2)
  /-- The MODEL's own field (log 9): the stores PPU_MEMORY has received, newest first. -/
  memStores : List (BitVec 14 × Byte)
  deriving DecidableEq, Repr

/-- The whole machine. -/
structure State where
  a : Byte
  x : Byte
  y : Byte
  sp : Byte
  pc : Word
  flags : Flags
  /-- The 2 KiB internal RAM by physical index (R19). -/
  ram : Memory
  /-- CPU cycles since the last reset (R21). -/
  cyc : Nat
  /-- A reported NMI edge not yet serviced (R22). -/
  nmiPending : Bool
  /-- Unassigned opcodes executed, oldest first: address and byte (R23). -/
  anomalies : List (Word × Byte)
  /-- The programming error that stopped the machine, if one did: `State.raise` sets it, and `step` takes no step from
  then on (R24, R62). -/
  faulted : Option ProgrammingError
  /-- The open parameter `IRQ_LINE` (R304, D11, log 12): the level of the maskable interrupt input. -/
  irqLine : Bool
  cart : Cartridge
  ppu : Ppu
  /-- The MODEL's own field (log 8): the index of the next fresh draw of an open value. -/
  draws : Nat
  deriving DecidableEq, Repr

/-- Why the machine stops, with the machine as the stop leaves it. -/
inductive Fault where
  /-- Raised by a PPUDATA read of a PPU address at or beyond the CHR store (R62, D28): with a CHR of 0 KiB every PPU
  address below 0x2000. The bus read in any instruction or fetch can raise it, and `step` answers it of a machine that is
  faulted already (R24). `left` is the faulted machine: `faulted` set, what was done before the failing read done, nothing
  after it (log 14). Safe: the spec too lets the machine take no further step. -/
  | mapperOutOfRange (addr : Word) (left : State)
  deriving DecidableEq, Repr

/-- Every flag clear but I, which reset sets (R361); the others are power-on draws (log 1). -/
def Flags.reset : Flags :=
  { n := false, v := false, d := false, i := true, z := false, c := false }

/-- A cartridge of one 16 KiB PRG bank and one CHR unit, no byte listed (log 4). -/
def Cartridge.blank : Cartridge :=
  { prgBanks := .one, prg := [], chrUnits := 1, chr := [] }

/-- The PPU right after reset: ctrl, mask, w, read_buf and odd_frame are cleared (R362); the rest are power-on draws
(log 3, 9, 10, 11). -/
def Ppu.reset : Ppu :=
  { ctrl := 0, mask := 0, status := 0, oam := [], oam2 := [], oamAddr := 0, vram := [], readBuf := 0, w := false,
    v := 0, t := 0, fineX := 0, scanline := 0, dot := 0, nmiPrev := false, suppress := false, oddFrame := false,
    raceWindow := [(240, 340), (241, 0)], spriteStatus := [], memStores := [] }

/-- The machine right after the reset that ends power-on (R28, R361, R362, R364): I set, cyc and nmi_pending clear, PC the
word at 0xFFFC of `Cartridge.blank`, SP the power-on 0x00 less 3. It is `powerOn` at zeros. -/
def State.reset : State :=
  { a := 0, x := 0, y := 0, sp := 0xFD, pc := 0, flags := Flags.reset, ram := [], cyc := 0, nmiPending := false,
    anomalies := [], faulted := none, irqLine := false, cart := Cartridge.blank, ppu := Ppu.reset, draws := 0 }

end Sys2Proof.Machine
end

