-- ==== Sys2Proof/Machine/Flags.lean ====
section
/-! DEFINITION. Every flag computation of the spec, over bytes and the six flags: packing (R17), SetNZ (R11), addition
(R161, R162), comparison (R163), BIT (R169), shifts and rotates (R181 to R184). -/

namespace Sys2Proof.Machine

/-- `PackP(b)`, the byte the CPU pushes: N V 1 b D I Z C (R16, R17). -/
def Flags.pack (f : Flags) (b : Bool) : Byte :=
  bit 1 f.n ++ bit 1 f.v ++ bit 1 true ++ bit 1 b ++ bit 1 f.d ++ bit 1 f.i ++ bit 1 f.z ++ bit 1 f.c

/-- `UnpackP(v)`: bits 5 and 4 are discarded (R17). -/
def Flags.unpack (v : Byte) : Flags :=
  { n := v.getLsbD 7, v := v.getLsbD 6, d := v.getLsbD 3, i := v.getLsbD 2, z := v.getLsbD 1, c := v.getLsbD 0 }

/-- `SetNZ(r)` (R11). -/
def Flags.setNZ (f : Flags) (r : Byte) : Flags := { f with n := r.getLsbD 7, z := r == 0 }

/-- `zext(A) + zext(M) + C`, in a widened intermediate (R160, R161). -/
def addWide (a m : Byte) (c : Bool) : Word := zext16 a + zext16 m + bit 16 c

/-- The 8-bit result of an addition (R161). -/
def addResult (a m : Byte) (c : Bool) : Byte := loByte (addWide a m c)

/-- The flags of an addition: C from bit 8 of the wide sum, V when A and M have one sign and the result another, N and Z
from the result; D and I unchanged (R161). -/
def Flags.add (f : Flags) (a m : Byte) : Flags :=
  let r := addResult a m f.c
  { f with c := (addWide a m f.c).getLsbD 8, v := ((~~~(a ^^^ m)) &&& (a ^^^ r)).getLsbD 7 }.setNZ r

/-- The one's complement SBC adds (R162). -/
def onesComplement (m : Byte) : Byte := m ^^^ 0xFF

/-- The flags of a comparison: C unsigned at-least, Z equal, N bit 7 of the difference; V unchanged (R163). -/
def Flags.compare (f : Flags) (reg m : Byte) : Flags :=
  { f with c := decide (m.toNat ≤ reg.toNat), z := reg == m, n := (reg - m).getLsbD 7 }

/-- The flags of BIT: N and V from M, Z from A AND M (R169). -/
def Flags.testBits (f : Flags) (a m : Byte) : Flags :=
  { f with n := m.getLsbD 7, v := m.getLsbD 6, z := (a &&& m) == 0 }

/-- ASL: C takes bit 7, bit 0 becomes 0 (R181). -/
def shiftLeft (m : Byte) (f : Flags) : Byte × Flags :=
  let r := m <<< 1
  (r, { f with c := m.getLsbD 7 }.setNZ r)

/-- LSR: C takes bit 0, bit 7 becomes 0 (R182). -/
def shiftRight (m : Byte) (f : Flags) : Byte × Flags :=
  let r := m >>> 1
  (r, { f with c := m.getLsbD 0 }.setNZ r)

/-- ROL: the old C enters at bit 0, C takes bit 7 (R183). -/
def rotateLeft (m : Byte) (f : Flags) : Byte × Flags :=
  let r := (m <<< 1) ||| bit 8 f.c
  (r, { f with c := m.getLsbD 7 }.setNZ r)

/-- ROR: the old C enters at bit 7, C takes bit 0 (R184). -/
def rotateRight (m : Byte) (f : Flags) : Byte × Flags :=
  let r := (m >>> 1) ||| (bit 8 f.c <<< 7)
  (r, { f with c := m.getLsbD 0 }.setNZ r)

/-- INC: N and Z only (R185). -/
def increment (m : Byte) (f : Flags) : Byte × Flags :=
  let r := m + 1
  (r, f.setNZ r)

/-- DEC: N and Z only (R186). -/
def decrement (m : Byte) (f : Flags) : Byte × Flags :=
  let r := m - 1
  (r, f.setNZ r)

end Sys2Proof.Machine
end

