-- ==== Sys2Proof/Config.lean ====
section
/-! DEFINITION. The free values of the spec's open parameters (R9). A free value
has no body: nothing can be proved of it, so a claim that mentions one holds whatever it is. -/

namespace Sys2Proof.Config

/-- `CART_LOW_READ` (R57, D17): the byte the n-th fresh draw gives a read of 0x4020-0x7FFF. Free value, log 6. -/
opaque cartLowRead : Nat → Byte

/-- `PPU_OPEN_BUS` (R76, R78, D18): the byte the n-th fresh draw gives the undefined bits of a PPU register read.
Free value, log 7. -/
opaque ppuOpenBus : Nat → Byte

/-- `PPU_MEMORY`, its read function (R80, D24): the byte at a PPU address from 0x2000 up, from what VRAM holds and the
stores PPU_MEMORY has received, newest first. Free value, log 9. -/
opaque ppuMemoryRead : List Host.Cell → List (BitVec 14 × Byte) → BitVec 14 → Byte

/-- `PPU_MEMORY`, its write function (R87, D24): the VRAM bytes that a store at a PPU address from 0x2000 up changes, each
with its new value, from what VRAM held and the stores received before. Free value, log 9. -/
opaque ppuMemoryStore : List Host.Cell → List (BitVec 14 × Byte) → BitVec 14 → Byte → List (BitVec 11 × Byte)

end Sys2Proof.Config
end

