-- ==== Sys2Proof/Machine/Mem.lean ====
section
/-! DEFINITION. Reading and writing a byte store kept in canonical form. -/

namespace Sys2Proof.Machine

/-- What an index that is not listed holds (log 2, 3, 4). -/
def Memory.unlisted : Byte := 0

/-- The byte at an index. -/
def Memory.read : Memory → Nat → Byte
  | [], _ => Memory.unlisted
  | (k, b) :: m, a => if k = a then b else Memory.read m a

/-- Store `v` at `a`, in canonical form: the entry stands between the lower and the higher indexes, and writing what an
unlisted index holds removes it. -/
def Memory.write (m : Memory) (a : Nat) (v : Byte) : Memory :=
  m.filter (fun e => e.1 < a) ++ (if v = Memory.unlisted then [] else [(a, v)]) ++ m.filter (fun e => a < e.1)

/-- The canonical form: indexes strictly rising, nothing listed that an unlisted index would hold. -/
def Memory.wf : Memory → Bool
  | [] => true
  | (k, b) :: m => b != Memory.unlisted && m.all (fun e => k < e.1) && Memory.wf m

/-- Every listed index lies below `n`. -/
def Memory.below (n : Nat) (m : Memory) : Bool := m.all (fun e => e.1 < n)

/-- The store that holds the bytes of a list from index `a` on, in canonical form. -/
def Memory.ofBytes : Nat → List Byte → Memory
  | _, [] => []
  | a, b :: bs => if b = Memory.unlisted then Memory.ofBytes (a + 1) bs else (a, b) :: Memory.ofBytes (a + 1) bs

end Sys2Proof.Machine
end

