-- ==== Sys2Proof/Machine/Mapper.lean ====
section
/-! DEFINITION. The cartridge's fixed mapper (R58 to R62). -/

namespace Sys2Proof.Machine

/-- Length of the PRG store in bytes: 16384 a unit (R8, R26). -/
def Cartridge.prgLength (c : Cartridge) : Nat :=
  match c.prgBanks with
  | .one => 16384
  | .two => 32768

/-- Length of the CHR store in bytes: 8192 a unit (R8, R26). -/
def Cartridge.chrLength (c : Cartridge) : Nat := 8192 * c.chrUnits

/-- `cpuAddressToPrgOffset`, for 0x8000 to 0xFFFF: one bank mirrored, two straight through (R59). -/
def Cartridge.prgOffset (c : Cartridge) (addr : Word) : Nat :=
  match c.prgBanks with
  | .one => (addr.toNat - 0x8000) % 0x4000
  | .two => addr.toNat - 0x8000

/-- `ppuAddressToChrOffset`: the identity (R61). -/
def chrOffset (a : BitVec 14) : Nat := a.toNat

/-- One read of a cartridge store: an offset at or beyond its length is a programming error naming the address (R62, log 16). -/
def readStore (m : Memory) (length offset : Nat) (addr : Word) : Except ProgrammingError Byte :=
  if offset < length then .ok (m.read offset) else .error (.mapperOutOfRange addr)

/-- A PRG read through the mapper (R55, R59). -/
def Cartridge.readPrg (c : Cartridge) (addr : Word) : Except ProgrammingError Byte :=
  readStore c.prg c.prgLength (c.prgOffset addr) addr

/-- A CHR read through the mapper (R61, R80). -/
def Cartridge.readChr (c : Cartridge) (a : BitVec 14) : Except ProgrammingError Byte :=
  readStore c.chr c.chrLength (chrOffset a) (a.setWidth 16)

/-- The fixed mapper's `cpuWrite`: no state changes (R56, R60). -/
def Cartridge.cpuWrite (c : Cartridge) (_addr : Word) (_v : Byte) : Cartridge := c

end Sys2Proof.Machine
end

