-- ==== Sys2Proof/Machine/Registers.lean ====
section
/-! DEFINITION. One named update for each field of the state that a step writes; Laws/State.lean has their lemmas. -/

namespace Sys2Proof.Machine

/-- Write A (R13). -/
def State.setA (s : State) (v : Byte) : State := { s with a := v }

/-- Write X (R13). -/
def State.setX (s : State) (v : Byte) : State := { s with x := v }

/-- Write Y (R13). -/
def State.setY (s : State) (v : Byte) : State := { s with y := v }

/-- Write SP (R14). -/
def State.setSp (s : State) (v : Byte) : State := { s with sp := v }

/-- `PC <- v` (R15). -/
def State.setPc (s : State) (v : Word) : State := { s with pc := v }

/-- Write all six flags (R16). -/
def State.setFlags (s : State) (v : Flags) : State := { s with flags := v }

/-- Write the internal RAM (R19). -/
def State.setRam (s : State) (v : Memory) : State := { s with ram := v }

/-- `cyc <- v` (R21). -/
def State.setCyc (s : State) (v : Nat) : State := { s with cyc := v }

/-- Write the NMI latch (R22). -/
def State.setNmiPending (s : State) (v : Bool) : State := { s with nmiPending := v }

/-- Write the anomaly log (R23). -/
def State.setAnomalies (s : State) (v : List (Word × Byte)) : State := { s with anomalies := v }

/-- Write the fault latch (R24). -/
def State.setFaulted (s : State) (v : Option ProgrammingError) : State := { s with faulted := v }

/-- Write the level of `IRQ_LINE` (R304). -/
def State.setIrqLine (s : State) (v : Bool) : State := { s with irqLine := v }

/-- Write the cartridge (R26). -/
def State.setCart (s : State) (v : Cartridge) : State := { s with cart := v }

/-- Write the PPU (R27). -/
def State.setPpu (s : State) (v : Ppu) : State := { s with ppu := v }

/-- Write the index of the next fresh draw (log 8). -/
def State.setDraws (s : State) (v : Nat) : State := { s with draws := v }

/-- `raise Fault(e)`: `faulted` is set with its reason, and nothing else changes (R11, R24, R62). -/
def State.raise (s : State) (e : ProgrammingError) : Fault :=
  match e with
  | .mapperOutOfRange addr => .mapperOutOfRange addr (s.setFaulted (some e))

/-- The byte of a store read made from `s`, or the fault it raises there (R62). -/
def State.orRaise (s : State) (r : Except ProgrammingError Byte) : Except Fault Byte :=
  match r with
  | .ok b => .ok b
  | .error e => .error (s.raise e)

/-- `cyc <- cyc + k` (R130). -/
def State.addCycles (s : State) (k : Nat) : State := s.setCyc (s.cyc + k)

end Sys2Proof.Machine
end

