-- ==== Sys2Proof/Machine/Ppu.lean ====
section
/-! DEFINITION. The PPU as the CPU sees it: its register window (R73 to R88) and the timing that raises the NMI edge
(R318 to R324). -/

namespace Sys2Proof.Machine

/-- The last value of cyc at which writes to PPUCTRL, PPUMASK, PPUSCROLL and PPUADDR are dropped (R8, R75, R374). -/
def warmUpLast : Nat := 29658

/-! ## The PPU's own address space -/

/-- The PPU address `v & 0x3FFF` (R80). -/
def Ppu.address (p : Ppu) : BitVec 14 := p.v.setWidth 14

/-- `PpuRead(a)`: CHR through the mapper below 0x2000, PPU_MEMORY from there (R80, D24). -/
def State.ppuMemoryRead (s : State) (a : BitVec 14) : Except Fault Byte :=
  if a.toNat < 0x2000 then s.orRaise (s.cart.readChr a)
  else .ok (Config.ppuMemoryRead s.ppu.vram s.ppu.memStores a)

/-- VRAM after the bytes PPU_MEMORY changes are stored in it. -/
def storeVram (vram : Memory) (stores : List (BitVec 11 × Byte)) : Memory :=
  stores.foldl (fun m e => Memory.write m e.1.toNat e.2) vram

/-- `PpuWrite(a, d)`: ignored below 0x2000 (CHR is ROM, with or without a byte there, log 13), into PPU_MEMORY from there
(R87, D24). -/
def Ppu.memoryWrite (p : Ppu) (a : BitVec 14) (d : Byte) : Ppu :=
  if a.toNat < 0x2000 then p
  else { p with
    vram := storeVram p.vram (Config.ppuMemoryStore p.vram p.memStores a d)
    memStores := (a, d) :: p.memStores }

/-- `Inc(v)`: 32 when ctrl bit 2 is set, 1 when clear, on the 15-bit v (R79). -/
def Ppu.incV (p : Ppu) : Ppu :=
  { p with v := p.v + (if p.ctrl.getLsbD 2 then 32 else 1) }

/-! ## Register reads -/

/-- One fresh draw of `PPU_OPEN_BUS` (R78, D18, log 7). -/
def State.drawOpenBus (s : State) : Byte × State :=
  (Config.ppuOpenBus s.draws, s.setDraws (s.draws + 1))

/-- Whether the PPU stands in `STATUS_RACE_WINDOW` (R76, D19). -/
def Ppu.racing (p : Ppu) : Bool := p.raceWindow.contains (p.scanline, p.dot)

/-- What a PPUSTATUS read does to the PPU: vblank and the write-toggle clear; in the race window the next vblank set is
suppressed (R76). -/
def Ppu.afterStatusRead (p : Ppu) : Ppu :=
  { p with status := p.status &&& 0x7F, w := false, suppress := p.suppress || p.racing }

/-- PPUSTATUS read (R76): status[7:5] over a drawn bits 4:0, with bit 7 zero in the race window. -/
def State.readStatus (s : State) : Byte × State :=
  let p := s.ppu
  let (openBits, s1) := s.drawOpenBus
  let value := (p.status &&& 0xE0) ||| (openBits &&& 0x1F)
  (if p.racing then value &&& 0x7F else value, s1.setPpu p.afterStatusRead)

/-- OAMDATA read (R77). -/
def State.readOamData (s : State) : Byte × State := (s.ppu.oam.read s.ppu.oamAddr.toNat, s)

/-- PPUDATA read (R80): one read behind below 0x3F00, direct at the palette, which refills the buffer from `a - 0x1000`. -/
def State.readPpuData (s : State) : Except Fault (Byte × State) := do
  let a := s.ppu.address
  let m ← s.ppuMemoryRead a
  if a.toNat < 0x3F00 then
    return (s.ppu.readBuf, s.setPpu { s.ppu with readBuf := m }.incV)
  else
    let under ← s.ppuMemoryRead (a - 0x1000)
    return (m, s.setPpu { s.ppu with readBuf := under }.incV)

/-- `ppu.registerRead(r)` (R52, R73, R76 to R80). -/
def State.registerRead (s : State) (r : BitVec 3) : Except Fault (Byte × State) :=
  if r = 2 then .ok s.readStatus
  else if r = 4 then .ok s.readOamData
  else if r = 7 then s.readPpuData
  else .ok s.drawOpenBus

/-! ## Register writes -/

/-- PPUCTRL write: ctrl, and its bits 1:0 into t[11:10] (R81). -/
def Ppu.writeCtrl (p : Ppu) (d : Byte) : Ppu :=
  { p with ctrl := d, t := p.t.extractLsb' 12 3 ++ d.extractLsb' 0 2 ++ p.t.extractLsb' 0 10 }

/-- PPUMASK write (R82). -/
def Ppu.writeMask (p : Ppu) (d : Byte) : Ppu := { p with mask := d }

/-- OAMADDR write (R83). -/
def Ppu.writeOamAddr (p : Ppu) (d : Byte) : Ppu := { p with oamAddr := d }

/-- OAMDATA write: ignored on scanlines below 240, else stored with an increment (R84). -/
def Ppu.writeOamData (p : Ppu) (d : Byte) : Ppu :=
  if p.scanline < 240 then p
  else { p with oam := p.oam.write p.oamAddr.toNat d, oamAddr := p.oamAddr + 1 }

/-- PPUSCROLL write, first and second byte by the toggle (R85). -/
def Ppu.writeScroll (p : Ppu) (d : Byte) : Ppu :=
  if p.w then
    { p with
      t := d.extractLsb' 0 3 ++ p.t.extractLsb' 10 2 ++ d.extractLsb' 3 5 ++ p.t.extractLsb' 0 5
      w := false }
  else
    { p with t := p.t.extractLsb' 5 10 ++ d.extractLsb' 3 5, fineX := d.extractLsb' 0 3, w := true }

/-- PPUADDR write: high byte into t, then the low byte with a commit to v (R86). -/
def Ppu.writeAddr (p : Ppu) (d : Byte) : Ppu :=
  if p.w then
    let t := p.t.extractLsb' 8 7 ++ d
    { p with t := t, v := t, w := false }
  else
    { p with t := 0#1 ++ d.extractLsb' 0 6 ++ p.t.extractLsb' 0 8, w := true }

/-- PPUDATA write: into the PPU's address space, then Inc(v) (R87). -/
def Ppu.writeData (p : Ppu) (d : Byte) : Ppu := (p.memoryWrite p.address d).incV

/-- `ppu.registerWrite(r, d, cyc)` (R52, R73, R81 to R88): 0, 1, 5 and 6 are locked out through the warm-up (R75), a
PPUSTATUS write does nothing (R88). -/
def Ppu.registerWrite (p : Ppu) (r : BitVec 3) (d : Byte) (cyc : Nat) : Ppu :=
  if r = 3 then p.writeOamAddr d
  else if r = 4 then p.writeOamData d
  else if r = 7 then p.writeData d
  else if r = 2 then p
  else if cyc ≤ warmUpLast then p
  else if r = 0 then p.writeCtrl d
  else if r = 1 then p.writeMask d
  else if r = 5 then p.writeScroll d
  else p.writeAddr d

/-! ## Timing and the NMI edge -/

/-- Whether background or sprite rendering is enabled: mask bit 3 or 4 (R74). -/
def Ppu.rendering (p : Ppu) : Bool := p.mask.getLsbD 3 || p.mask.getLsbD 4

/-- Whether the next dot is the one the odd frame leaves out (R323). -/
def Ppu.skipsDot (p : Ppu) : Bool :=
  p.scanline == 261 && p.dot == 339 && p.oddFrame && p.rendering

/-- The next line's dot 0; after line 261 comes line 0 with frame parity toggled (R320). -/
def Ppu.nextLine (p : Ppu) (dot : Nat) : Ppu :=
  if 261 < p.scanline + 1 then { p with dot := dot, scanline := 0, oddFrame := !p.oddFrame }
  else { p with dot := dot, scanline := p.scanline + 1 }

/-- The counters' advance by one dot (R320, R323). -/
def Ppu.moveDot (p : Ppu) : Ppu :=
  if p.skipsDot then p.nextLine 0
  else if 340 < p.dot + 1 then p.nextLine (p.dot + 1 - 341)
  else { p with dot := p.dot + 1 }

/-- The events of the position the PPU has arrived at: the vblank set, unless suppressed, at (241, 1) (R321); the clear of
vblank and the sprite flags at (261, 1) (R322). -/
def Ppu.positionEvents (p : Ppu) : Ppu :=
  if p.scanline = 241 ∧ p.dot = 1 then
    if p.suppress then { p with suppress := false } else { p with status := p.status ||| 0x80 }
  else if p.scanline = 261 ∧ p.dot = 1 then { p with status := p.status &&& 0x1F }
  else p

/-- `Dot()` (R320). -/
def Ppu.stepDot (p : Ppu) : Ppu := p.moveDot.positionEvents

/-- The NMI level: nmi_enable AND vblank (R324). -/
def Ppu.nmiLevel (p : Ppu) : Bool := p.ctrl.getLsbD 7 && p.status.getLsbD 7

/-- `EvalNMI()`: the PPU with the level remembered, and whether an edge fired (R324). -/
def Ppu.evalNmi (p : Ppu) : Ppu × Bool :=
  ({ p with nmiPrev := p.nmiLevel }, p.nmiLevel && !p.nmiPrev)

/-- `k` times `Dot(); EvalNMI()`, with the edge so far (R318). -/
def Ppu.runDots : Nat → Ppu → Bool → Ppu × Bool
  | 0, p, edge => (p, edge)
  | k + 1, p, edge =>
    let (q, e) := p.stepDot.evalNmi
    Ppu.runDots k q (edge || e)

/-- What the renderer does to status[6:5] in a tick: the next entry of `SPRITE_STATUS` (R74, D23, log 11). -/
def Ppu.takeSpriteStatus (p : Ppu) : Ppu :=
  match p.spriteStatus with
  | [] => p
  | b :: rest =>
    { p with status := p.status.extractLsb' 7 1 ++ b ++ p.status.extractLsb' 0 5, spriteStatus := rest }

/-- `tick(n)`: 3 dots a CPU cycle, and whether an NMI edge fired (R318). -/
def Ppu.tick (p : Ppu) (n : Nat) : Ppu × Bool :=
  let (q, e) := p.takeSpriteStatus.evalNmi
  Ppu.runDots (3 * n) q e

end Sys2Proof.Machine
end

