-- ==== Sys2Proof/Machine/Ops.lean ====
section
/-! DEFINITION. The operations every meaning is built from: the bus (R50), fetch, 16-bit reads and the stack (R11, R210),
taking an interrupt and returning from one (R218, R219, R305), and how a step's effect becomes its outcome (R130). -/

namespace Sys2Proof.Machine

/-! ## The bus -/

/-- A read of internal RAM through its mirrors (R51). -/
def State.ramRead (s : State) (addr : Word) : Byte := s.ram.read (addr.toNat % 0x0800)

/-- A write of internal RAM through its mirrors (R51). -/
def State.ramWrite (s : State) (addr : Word) (v : Byte) : State := s.setRam (s.ram.write (addr.toNat % 0x0800) v)

/-- One fresh draw of `CART_LOW_READ` (R57, D17, log 6). -/
def State.drawCartLow (s : State) : Byte × State :=
  (Config.cartLowRead s.draws, s.setDraws (s.draws + 1))

/-- The PPU register an address of the window selects, `addr mod 8` (R52). -/
def ppuRegister (addr : Word) : BitVec 3 := addr.extractLsb' 0 3

/-- `MemRead(addr, 1)`: one CPU bus read, routed by address (R50, R51 to R57). -/
def State.busRead (s : State) (addr : Word) : Except Fault (Byte × State) :=
  if addr.toNat < 0x2000 then .ok (s.ramRead addr, s)
  else if addr.toNat < 0x4000 then s.registerRead (ppuRegister addr)
  else if addr.toNat < 0x4020 then .ok (0, s)
  else if addr.toNat < 0x8000 then .ok s.drawCartLow
  else do return (← s.orRaise (s.cart.readPrg addr), s)

/-- `MemWrite(addr, 1, v)`: one CPU bus write, routed by address (R50 to R56). A PPU register write passes cyc as it stood
when the step began (R131). -/
def State.busWrite (s : State) (addr : Word) (v : Byte) : State :=
  if addr.toNat < 0x2000 then s.ramWrite addr v
  else if addr.toNat < 0x4000 then s.setPpu (s.ppu.registerWrite (ppuRegister addr) v s.cyc)
  else if addr.toNat < 0x4020 then s
  else s.setCart (s.cart.cpuWrite addr v)

/-- `Fetch()` (R11). -/
def State.fetch (s : State) : Except Fault (Byte × State) := do
  let (b, s1) ← s.busRead s.pc
  return (b, s1.setPc (s.pc + 1))

/-- The little-endian word whose low byte is at `lo` and high byte at `hi`, low first (R11, R63). -/
def State.readWordAt (s : State) (lo hi : Word) : Except Fault (Word × State) := do
  let (l, s1) ← s.busRead lo
  let (h, s2) ← s1.busRead hi
  return (wordOf h l, s2)

/-- `Read16(addr)`, wrapping modulo 65536 (R11, R64). -/
def State.read16 (s : State) (addr : Word) : Except Fault (Word × State) := s.readWordAt addr (addr + 1)

/-- The byte a read of `addr` returns where reading changes nothing: RAM, the stub and PRG; none for a PPU register or
0x4020-0x7FFF. It is how a statement reads memory without a bus access. -/
def State.peek (s : State) (addr : Word) : Option Byte :=
  if addr.toNat < 0x2000 then some (s.ramRead addr)
  else if addr.toNat < 0x4000 then none
  else if addr.toNat < 0x4020 then some 0
  else if addr.toNat < 0x8000 then none
  else some (s.cart.prg.read (s.cart.prgOffset addr))

/-! ## The stack -/

/-- The address SP points at, in page 1 (R14). -/
def stackAddr (sp : Byte) : Word := 0x0100 + zext16 sp

/-- `Push(b)`: store, then decrement SP modulo 256 (R11, R210). -/
def State.push (s : State) (b : Byte) : State := (s.busWrite (stackAddr s.sp) b).setSp (s.sp - 1)

/-- Push a word, high byte first (R210). -/
def State.pushWord (s : State) (w : Word) : State := (s.push (hiByte w)).push (loByte w)

/-- `Pull()`: increment SP modulo 256, then load (R11, R210). -/
def State.pull (s : State) : Except Fault (Byte × State) := (s.setSp (s.sp + 1)).busRead (stackAddr (s.sp + 1))

/-- Pull a word, low byte first (R210). -/
def State.pullWord (s : State) : Except Fault (Word × State) := do
  let (lo, s1) ← s.pull
  let (hi, s2) ← s1.pull
  return (wordOf hi lo, s2)

/-! ## Interrupts -/

/-- The NMI vector (R66, R306). -/
def nmiVector : Word := 0xFFFA

/-- The reset vector (R66, R361). -/
def resetVector : Word := 0xFFFC

/-- The vector BRK and IRQ share (R66, R218, R308). -/
def irqVector : Word := 0xFFFE

/-- Taking an interrupt, the one sequence BRK, NMI and IRQ share: push the return address and the status with B as given,
set I, load PC from the vector (R218, R305). -/
def State.enterInterrupt (s : State) (ret : Word) (b : Bool) (vector : Word) : Except Fault State := do
  let s1 := (s.pushWord ret).push (s.flags.pack b)
  let s2 := s1.setFlags { s1.flags with i := true }
  let (target, s3) ← s2.read16 vector
  return s3.setPc target

/-- Returning from an interrupt: pull the status, then PC (R219). -/
def State.returnFromInterrupt (s : State) : Except Fault State := do
  let (p, s1) ← s.pull
  let (target, s2) ← (s1.setFlags (Flags.unpack p)).pullWord
  return s2.setPc target

/-! ## The outcome of a step -/

/-- What a step's effect and its cycles come to: the next state with the cycles added to cyc (R130), or the fault of the
bus read that failed, which carries the machine it leaves: no cycles counted (R62, log 14). -/
def complete (r : Except Fault (State × Nat)) : Host.Outcome State Fault Refusal :=
  match r with
  | .ok (s, cycles) => .next (s.addCycles cycles)
  | .error e => .fault e

/-- An effect that makes no bus read and its fixed cycles (R130). -/
def finish (s : State) (cycles : Nat) : Host.Outcome State Fault Refusal := complete (.ok (s, cycles))

/-- An effect that may fail at a bus read and its fixed cycles (R130). -/
def finishRead (r : Except Fault State) (cycles : Nat) : Host.Outcome State Fault Refusal :=
  complete (do return (← r, cycles))

/-- `InterruptEntry(vector)`: NMI and IRQ push the address of the next instruction with B = 0 and take 7 cycles (R305). -/
def interruptEntry (vector : Word) (s : State) : Host.Outcome State Fault Refusal :=
  finishRead (s.enterInterrupt s.pc false vector) 7

end Sys2Proof.Machine
end

