-- ==== Sys2Proof/Machine/Console.lean ====
section
/-! DEFINITION. The console's part of a step: fetching an instruction (R130), ticking the PPU and latching the NMI edge
(R326); the host's actions, reset (R360 to R362) and power-on (R364); and where a program's bytes lie. -/

namespace Sys2Proof.Machine

/-- Fetch one instruction: the opcode, then the operand bytes of its format in address order (R101, R130, R134). -/
def State.fetchInstr (s : State) : Except Fault (Instr × State) := do
  let (op, s1) ← s.fetch
  match lookup op with
  | .f1 i => return (i, s1)
  | .f2 build =>
    let (b1, s2) ← s1.fetch
    return (build b1, s2)
  | .f3 build =>
    let (lo, s2) ← s1.fetch
    let (hi, s3) ← s2.fetch
    return (build (wordOf hi lo), s3)

/-- Tick the PPU for `n` CPU cycles and latch a reported edge in nmi_pending (R303, R326). -/
def State.tick (s : State) (n : Nat) : State :=
  let (p, edge) := s.ppu.tick n
  (s.setPpu p).setNmiPending (s.nmiPending || edge)

/-- What the console does with the CPU's outcome: tick the cycles the CPU step from `before` added to cyc (R326, log 21). -/
def tickAfter (before : State) (o : Host.Outcome State Fault Refusal) : Host.Outcome State Fault Refusal :=
  match o with
  | .next s => .next (s.tick (s.cyc - before.cyc))
  | .fault r => .fault r
  | .refused r => .refused r

/-! ## The host's actions -/

/-- `PpuReset()` (R362). -/
def Ppu.doReset (p : Ppu) : Ppu :=
  { p with ctrl := 0, mask := 0, w := false, readBuf := 0, oddFrame := false }

/-- `CpuReset()` (R361). -/
def State.cpuReset (s : State) : Except Fault State := do
  let s1 := (s.setSp (s.sp - 3)).setFlags { s.flags with i := true }
  let (target, s2) ← s1.read16 resetVector
  return ((s2.setPc target).setCyc 0).setNmiPending false

/-- A system reset: the PPU, then the CPU; nothing is counted or ticked (R360). -/
def systemReset (s : State) : Host.Outcome State Fault Refusal :=
  match (s.setPpu s.ppu.doReset).cpuReset with
  | .ok t => .next t
  | .error e => .fault e

/-- The open power-on parameters (R9, R364): registers, flags, RAM and every PPU field. -/
structure PowerOn where
  a : Byte
  x : Byte
  y : Byte
  sp : Byte
  pc : Word
  flags : Flags
  ram : Memory
  cyc : Nat
  ppu : Ppu
  deriving DecidableEq, Repr

/-- The machine as power-on creates it, before its one reset (R364). -/
def PowerOn.create (d : PowerOn) (cart : Cartridge) : State :=
  { a := d.a, x := d.x, y := d.y, sp := d.sp, pc := d.pc, flags := d.flags, ram := d.ram, cyc := d.cyc,
    nmiPending := false, anomalies := [], faulted := none, irqLine := false, cart := cart, ppu := d.ppu, draws := 0 }

/-- Power-on with a loaded cartridge: create, then one system reset (R364). -/
def powerOn (d : PowerOn) (cart : Cartridge) : Host.Outcome State Fault Refusal := systemReset (d.create cart)

/-! ## Where a program's bytes lie -/

/-- Whether an address names a byte of RAM or PRG, one that can hold a program. -/
def holdsCode (addr : Word) : Bool := addr.toNat < 0x2000 || 0x8000 ≤ addr.toNat

/-- Put a byte where the bus reads it at `addr`: in RAM, or in PRG as the loader does (log 5). -/
def State.placeByte (s : State) (addr : Word) (b : Byte) : State :=
  if addr.toNat < 0x2000 then s.ramWrite addr b
  else if addr.toNat < 0x8000 then s
  else s.setCart { s.cart with prg := s.cart.prg.write (s.cart.prgOffset addr) b }

/-- Put bytes at consecutive addresses from `addr` on. -/
def State.placeBytes (s : State) (addr : Word) : List Byte → State
  | [] => s
  | b :: bs => State.placeBytes (s.placeByte addr b) (addr + 1) bs

/-- The address a program is placed at: PC, or the first PRG byte when one of the three bytes from PC on can hold none. -/
def State.placeAddr (s : State) : Word :=
  if holdsCode s.pc && holdsCode (s.pc + 1) && holdsCode (s.pc + 2) then s.pc else 0x8000

/-- Place an instruction's bytes where the next step fetches, with nothing before it: no fault, no interrupt (log 5). -/
def State.placeInstr (s : State) (bytes : List Byte) : State :=
  ((((s.placeBytes s.placeAddr bytes).setPc s.placeAddr).setNmiPending false).setIrqLine false).setFaulted none

end Sys2Proof.Machine
end

