-- ==== Sys2Proof/Machine/Operands.lean ====
section
/-! DEFINITION. The addressing modes (R137 to R147), the operand classes (R133) and the extra cycles of the table (R100,
R135). The operand bytes are already fetched: an instruction carries them, PC stands after them. -/

namespace Sys2Proof.Machine

/-- The modes with an effective address that reads, writes and read-modify-writes use (R136). -/
inductive MemMode where
  | zp (b : Byte)
  | zpX (b : Byte)
  | zpY (b : Byte)
  | abs (addr : Word)
  | absX (addr : Word)
  | absY (addr : Word)
  | indX (b : Byte)
  | indY (b : Byte)
  deriving DecidableEq, Repr

/-- An effective address and whether computing it crossed a page. -/
structure Target where
  ea : Word
  crossed : Bool
  deriving DecidableEq, Repr

/-- `extra_class` of a table entry that is no branch (R100). -/
inductive Extra where
  | none
  | page
  deriving DecidableEq, Repr

/-- The cycles an entry adds: one for `page` when the address computation crossed (R135). -/
def Extra.cycles (e : Extra) (crossed : Bool) : Nat :=
  match e with
  | .none => 0
  | .page => if crossed then 1 else 0

/-- A base indexed by a register modulo 65536, crossed when the page changes (R145, R146). -/
def indexed (base : Word) (index : Byte) : Target :=
  { ea := base + zext16 index, crossed := hiByte base != hiByte (base + zext16 index) }

/-- An effective address whose mode never crosses. -/
def Target.plain (ea : Word) : Target := { ea := ea, crossed := false }

/-- The word at a zero-page pointer, both bytes in page 0 (R144, R145, D6). -/
def State.readPointer (s : State) (p : Byte) : Except Fault (Word × State) :=
  s.readWordAt (zext16 p) (zext16 (p + 1))

/-- `Resolve`: the effective address of a mode, with the pointer reads it makes (R140 to R146). -/
def State.resolve (s : State) (mode : MemMode) : Except Fault (Target × State) :=
  match mode with
  | .zp b => .ok (Target.plain (zext16 b), s)
  | .zpX b => .ok (Target.plain (zext16 (b + s.x)), s)
  | .zpY b => .ok (Target.plain (zext16 (b + s.y)), s)
  | .abs addr => .ok (Target.plain addr, s)
  | .absX addr => .ok (indexed addr s.x, s)
  | .absY addr => .ok (indexed addr s.y, s)
  | .indX b => do
    let (ea, s1) ← s.readPointer (b + s.x)
    return (Target.plain ea, s1)
  | .indY b => do
    let (base, s1) ← s.readPointer b
    return (indexed base s.y, s1)

/-- The pointer of indirect mode: when its low byte is 0xFF the high byte comes from the start of the same page (R143). -/
def State.readIndirect (s : State) (ptr : Word) : Except Fault (Word × State) :=
  s.readWordAt ptr ((ptr &&& 0xFF00) ||| ((ptr + 1) &&& 0x00FF))

/-- Resolve a mode and read its operand once: the operand, whether a page was crossed, and the state after the reads. -/
def State.loadOperand (s : State) (mode : MemMode) : Except Fault (Byte × Bool × State) := do
  let (t, s1) ← s.resolve mode
  let (m, s2) ← s1.busRead t.ea
  return (m, t.crossed, s2)

/-! ## Register results -/

/-- `A <- v; SetNZ(v)`. -/
def setANZ (v : Byte) (s : State) : State := (s.setA v).setFlags (s.flags.setNZ v)

/-- `X <- v; SetNZ(v)`. -/
def setXNZ (v : Byte) (s : State) : State := (s.setX v).setFlags (s.flags.setNZ v)

/-- `Y <- v; SetNZ(v)`. -/
def setYNZ (v : Byte) (s : State) : State := (s.setY v).setFlags (s.flags.setNZ v)

/-! ## The operand classes (R133) -/

/-- Read class, a memory mode: the operation `f` takes the operand once (R133, R135). -/
def readOp (mode : MemMode) (base : Nat) (extra : Extra) (f : Byte → State → State) (s : State) :
    Host.Outcome State Fault Refusal :=
  complete (do
    let (m, crossed, s1) ← s.loadOperand mode
    return (f m s1, base + extra.cycles crossed))

/-- Read class, immediate mode: 2 cycles (R139). -/
def immOp (imm : Byte) (f : Byte → State → State) (s : State) : Host.Outcome State Fault Refusal :=
  finish (f imm s) 2

/-- Write class: one write, the target not read (R133, D5). -/
def storeOp (mode : MemMode) (base : Nat) (reg : State → Byte) (s : State) : Host.Outcome State Fault Refusal :=
  complete (do
    let (t, s1) ← s.resolve mode
    return (s1.busWrite t.ea (reg s1), base))

/-- Read-modify-write class: one read, one write of the result, flags from the function (R133, R180). -/
def rmwOp (mode : MemMode) (base : Nat) (f : Byte → Flags → Byte × Flags) (s : State) :
    Host.Outcome State Fault Refusal :=
  complete (do
    let (t, s1) ← s.resolve mode
    let (m, s2) ← s1.busRead t.ea
    let (r, flags) := f m s2.flags
    return ((s2.busWrite t.ea r).setFlags flags, base))

/-- Accumulator mode of a shift or rotate: A is read and written, no bus access, 2 cycles (R138, R180). -/
def accOp (f : Byte → Flags → Byte × Flags) (s : State) : Host.Outcome State Fault Refusal :=
  let (r, flags) := f s.a s.flags
  finish ((s.setA r).setFlags flags) 2

/-- A branch: taken when the flag has the expected value, one more cycle then, and another when the target's page is not
that of the next instruction (R147, R200). -/
def branchOp (flag expected : Bool) (rel : Byte) (s : State) : Host.Outcome State Fault Refusal :=
  let target := s.pc + sext16 rel
  if flag == expected then
    finish (s.setPc target) (3 + if hiByte target != hiByte s.pc then 1 else 0)
  else finish s 2

end Sys2Proof.Machine
end

