-- ==== Sys2Proof/Machine/Arith.lean ====
section
/-! DEFINITION. The arithmetic, logical and compare instructions (41_arith_logic_compare.md): every row of ADC, SBC, CMP, CPX,
CPY, AND, ORA, EOR and BIT. Each definition is one row of the InstructionTable: its
mode, its base cycles and its extra class (R106). -/

namespace Sys2Proof.Machine

/-- ADC's effect (R161), binary whatever D holds (R160). -/
def adc (m : Byte) (s : State) : State := (s.setA (addResult s.a m s.flags.c)).setFlags (s.flags.add s.a m)

/-- SBC's effect: ADC of the one's complement (R162). -/
def sbc (m : Byte) (s : State) : State := adc (onesComplement m) s

/-- CMP's effect (R163). -/
def compareA (m : Byte) (s : State) : State := s.setFlags (s.flags.compare s.a m)

/-- CPX's effect (R164). -/
def compareX (m : Byte) (s : State) : State := s.setFlags (s.flags.compare s.x m)

/-- CPY's effect (R165). -/
def compareY (m : Byte) (s : State) : State := s.setFlags (s.flags.compare s.y m)

/-- AND's effect (R166). -/
def andA (m : Byte) (s : State) : State := setANZ (s.a &&& m) s

/-- ORA's effect (R167). -/
def oraA (m : Byte) (s : State) : State := setANZ (s.a ||| m) s

/-- EOR's effect (R168). -/
def eorA (m : Byte) (s : State) : State := setANZ (s.a ^^^ m) s

/-- BIT's effect (R169). -/
def bitTest (m : Byte) (s : State) : State := s.setFlags (s.flags.testBits s.a m)

/-! ## ADC (R161) -/

/-- `ADC ($nn,X)`, 0x61, 6 cycles (R161, R144). -/
def execAdcIndX (zp : Byte) (s : State) : Host.Outcome State Fault Refusal :=
  readOp (.indX zp) 6 .none adc s

/-- `ADC $nn`, 0x65, 3 cycles (R161, R140). -/
def execAdcZp (zp : Byte) (s : State) : Host.Outcome State Fault Refusal :=
  readOp (.zp zp) 3 .none adc s

/-- `ADC #$nn`, 0x69, 2 cycles (R161, R139). -/
def execAdcImm (imm : Byte) (s : State) : Host.Outcome State Fault Refusal :=
  immOp imm adc s

/-- `ADC $hhll`, 0x6D, 4 cycles (R161, R142). -/
def execAdcAbs (addr : Word) (s : State) : Host.Outcome State Fault Refusal :=
  readOp (.abs addr) 4 .none adc s

/-- `ADC ($nn),Y`, 0x71, 5 cycles, one more on a page cross (R161, R145). -/
def execAdcIndY (zp : Byte) (s : State) : Host.Outcome State Fault Refusal :=
  readOp (.indY zp) 5 .page adc s

/-- `ADC $nn,X`, 0x75, 4 cycles (R161, R141). -/
def execAdcZpX (zp : Byte) (s : State) : Host.Outcome State Fault Refusal :=
  readOp (.zpX zp) 4 .none adc s

/-- `ADC $hhll,Y`, 0x79, 4 cycles, one more on a page cross (R161, R146). -/
def execAdcAbsY (addr : Word) (s : State) : Host.Outcome State Fault Refusal :=
  readOp (.absY addr) 4 .page adc s

/-- `ADC $hhll,X`, 0x7D, 4 cycles, one more on a page cross (R161, R146). -/
def execAdcAbsX (addr : Word) (s : State) : Host.Outcome State Fault Refusal :=
  readOp (.absX addr) 4 .page adc s

/-! ## SBC (R162) -/

/-- `SBC ($nn,X)`, 0xE1, 6 cycles (R162, R144). -/
def execSbcIndX (zp : Byte) (s : State) : Host.Outcome State Fault Refusal :=
  readOp (.indX zp) 6 .none sbc s

/-- `SBC $nn`, 0xE5, 3 cycles (R162, R140). -/
def execSbcZp (zp : Byte) (s : State) : Host.Outcome State Fault Refusal :=
  readOp (.zp zp) 3 .none sbc s

/-- `SBC #$nn`, 0xE9, 2 cycles (R162, R139). -/
def execSbcImm (imm : Byte) (s : State) : Host.Outcome State Fault Refusal :=
  immOp imm sbc s

/-- `SBC $hhll`, 0xED, 4 cycles (R162, R142). -/
def execSbcAbs (addr : Word) (s : State) : Host.Outcome State Fault Refusal :=
  readOp (.abs addr) 4 .none sbc s

/-- `SBC ($nn),Y`, 0xF1, 5 cycles, one more on a page cross (R162, R145). -/
def execSbcIndY (zp : Byte) (s : State) : Host.Outcome State Fault Refusal :=
  readOp (.indY zp) 5 .page sbc s

/-- `SBC $nn,X`, 0xF5, 4 cycles (R162, R141). -/
def execSbcZpX (zp : Byte) (s : State) : Host.Outcome State Fault Refusal :=
  readOp (.zpX zp) 4 .none sbc s

/-- `SBC $hhll,Y`, 0xF9, 4 cycles, one more on a page cross (R162, R146). -/
def execSbcAbsY (addr : Word) (s : State) : Host.Outcome State Fault Refusal :=
  readOp (.absY addr) 4 .page sbc s

/-- `SBC $hhll,X`, 0xFD, 4 cycles, one more on a page cross (R162, R146). -/
def execSbcAbsX (addr : Word) (s : State) : Host.Outcome State Fault Refusal :=
  readOp (.absX addr) 4 .page sbc s

/-! ## CMP (R163) -/

/-- `CMP ($nn,X)`, 0xC1, 6 cycles (R163, R144). -/
def execCmpIndX (zp : Byte) (s : State) : Host.Outcome State Fault Refusal :=
  readOp (.indX zp) 6 .none compareA s

/-- `CMP $nn`, 0xC5, 3 cycles (R163, R140). -/
def execCmpZp (zp : Byte) (s : State) : Host.Outcome State Fault Refusal :=
  readOp (.zp zp) 3 .none compareA s

/-- `CMP #$nn`, 0xC9, 2 cycles (R163, R139). -/
def execCmpImm (imm : Byte) (s : State) : Host.Outcome State Fault Refusal :=
  immOp imm compareA s

/-- `CMP $hhll`, 0xCD, 4 cycles (R163, R142). -/
def execCmpAbs (addr : Word) (s : State) : Host.Outcome State Fault Refusal :=
  readOp (.abs addr) 4 .none compareA s

/-- `CMP ($nn),Y`, 0xD1, 5 cycles, one more on a page cross (R163, R145). -/
def execCmpIndY (zp : Byte) (s : State) : Host.Outcome State Fault Refusal :=
  readOp (.indY zp) 5 .page compareA s

/-- `CMP $nn,X`, 0xD5, 4 cycles (R163, R141). -/
def execCmpZpX (zp : Byte) (s : State) : Host.Outcome State Fault Refusal :=
  readOp (.zpX zp) 4 .none compareA s

/-- `CMP $hhll,Y`, 0xD9, 4 cycles, one more on a page cross (R163, R146). -/
def execCmpAbsY (addr : Word) (s : State) : Host.Outcome State Fault Refusal :=
  readOp (.absY addr) 4 .page compareA s

/-- `CMP $hhll,X`, 0xDD, 4 cycles, one more on a page cross (R163, R146). -/
def execCmpAbsX (addr : Word) (s : State) : Host.Outcome State Fault Refusal :=
  readOp (.absX addr) 4 .page compareA s

/-! ## CPX (R164) -/

/-- `CPX #$nn`, 0xE0, 2 cycles (R164, R139). -/
def execCpxImm (imm : Byte) (s : State) : Host.Outcome State Fault Refusal :=
  immOp imm compareX s

/-- `CPX $nn`, 0xE4, 3 cycles (R164, R140). -/
def execCpxZp (zp : Byte) (s : State) : Host.Outcome State Fault Refusal :=
  readOp (.zp zp) 3 .none compareX s

/-- `CPX $hhll`, 0xEC, 4 cycles (R164, R142). -/
def execCpxAbs (addr : Word) (s : State) : Host.Outcome State Fault Refusal :=
  readOp (.abs addr) 4 .none compareX s

/-! ## CPY (R165) -/

/-- `CPY #$nn`, 0xC0, 2 cycles (R165, R139). -/
def execCpyImm (imm : Byte) (s : State) : Host.Outcome State Fault Refusal :=
  immOp imm compareY s

/-- `CPY $nn`, 0xC4, 3 cycles (R165, R140). -/
def execCpyZp (zp : Byte) (s : State) : Host.Outcome State Fault Refusal :=
  readOp (.zp zp) 3 .none compareY s

/-- `CPY $hhll`, 0xCC, 4 cycles (R165, R142). -/
def execCpyAbs (addr : Word) (s : State) : Host.Outcome State Fault Refusal :=
  readOp (.abs addr) 4 .none compareY s

/-! ## AND (R166) -/

/-- `AND ($nn,X)`, 0x21, 6 cycles (R166, R144). -/
def execAndIndX (zp : Byte) (s : State) : Host.Outcome State Fault Refusal :=
  readOp (.indX zp) 6 .none andA s

/-- `AND $nn`, 0x25, 3 cycles (R166, R140). -/
def execAndZp (zp : Byte) (s : State) : Host.Outcome State Fault Refusal :=
  readOp (.zp zp) 3 .none andA s

/-- `AND #$nn`, 0x29, 2 cycles (R166, R139). -/
def execAndImm (imm : Byte) (s : State) : Host.Outcome State Fault Refusal :=
  immOp imm andA s

/-- `AND $hhll`, 0x2D, 4 cycles (R166, R142). -/
def execAndAbs (addr : Word) (s : State) : Host.Outcome State Fault Refusal :=
  readOp (.abs addr) 4 .none andA s

/-- `AND ($nn),Y`, 0x31, 5 cycles, one more on a page cross (R166, R145). -/
def execAndIndY (zp : Byte) (s : State) : Host.Outcome State Fault Refusal :=
  readOp (.indY zp) 5 .page andA s

/-- `AND $nn,X`, 0x35, 4 cycles (R166, R141). -/
def execAndZpX (zp : Byte) (s : State) : Host.Outcome State Fault Refusal :=
  readOp (.zpX zp) 4 .none andA s

/-- `AND $hhll,Y`, 0x39, 4 cycles, one more on a page cross (R166, R146). -/
def execAndAbsY (addr : Word) (s : State) : Host.Outcome State Fault Refusal :=
  readOp (.absY addr) 4 .page andA s

/-- `AND $hhll,X`, 0x3D, 4 cycles, one more on a page cross (R166, R146). -/
def execAndAbsX (addr : Word) (s : State) : Host.Outcome State Fault Refusal :=
  readOp (.absX addr) 4 .page andA s

/-! ## ORA (R167) -/

/-- `ORA ($nn,X)`, 0x01, 6 cycles (R167, R144). -/
def execOraIndX (zp : Byte) (s : State) : Host.Outcome State Fault Refusal :=
  readOp (.indX zp) 6 .none oraA s

/-- `ORA $nn`, 0x05, 3 cycles (R167, R140). -/
def execOraZp (zp : Byte) (s : State) : Host.Outcome State Fault Refusal :=
  readOp (.zp zp) 3 .none oraA s

/-- `ORA #$nn`, 0x09, 2 cycles (R167, R139). -/
def execOraImm (imm : Byte) (s : State) : Host.Outcome State Fault Refusal :=
  immOp imm oraA s

/-- `ORA $hhll`, 0x0D, 4 cycles (R167, R142). -/
def execOraAbs (addr : Word) (s : State) : Host.Outcome State Fault Refusal :=
  readOp (.abs addr) 4 .none oraA s

/-- `ORA ($nn),Y`, 0x11, 5 cycles, one more on a page cross (R167, R145). -/
def execOraIndY (zp : Byte) (s : State) : Host.Outcome State Fault Refusal :=
  readOp (.indY zp) 5 .page oraA s

/-- `ORA $nn,X`, 0x15, 4 cycles (R167, R141). -/
def execOraZpX (zp : Byte) (s : State) : Host.Outcome State Fault Refusal :=
  readOp (.zpX zp) 4 .none oraA s

/-- `ORA $hhll,Y`, 0x19, 4 cycles, one more on a page cross (R167, R146). -/
def execOraAbsY (addr : Word) (s : State) : Host.Outcome State Fault Refusal :=
  readOp (.absY addr) 4 .page oraA s

/-- `ORA $hhll,X`, 0x1D, 4 cycles, one more on a page cross (R167, R146). -/
def execOraAbsX (addr : Word) (s : State) : Host.Outcome State Fault Refusal :=
  readOp (.absX addr) 4 .page oraA s

/-! ## EOR (R168) -/

/-- `EOR ($nn,X)`, 0x41, 6 cycles (R168, R144). -/
def execEorIndX (zp : Byte) (s : State) : Host.Outcome State Fault Refusal :=
  readOp (.indX zp) 6 .none eorA s

/-- `EOR $nn`, 0x45, 3 cycles (R168, R140). -/
def execEorZp (zp : Byte) (s : State) : Host.Outcome State Fault Refusal :=
  readOp (.zp zp) 3 .none eorA s

/-- `EOR #$nn`, 0x49, 2 cycles (R168, R139). -/
def execEorImm (imm : Byte) (s : State) : Host.Outcome State Fault Refusal :=
  immOp imm eorA s

/-- `EOR $hhll`, 0x4D, 4 cycles (R168, R142). -/
def execEorAbs (addr : Word) (s : State) : Host.Outcome State Fault Refusal :=
  readOp (.abs addr) 4 .none eorA s

/-- `EOR ($nn),Y`, 0x51, 5 cycles, one more on a page cross (R168, R145). -/
def execEorIndY (zp : Byte) (s : State) : Host.Outcome State Fault Refusal :=
  readOp (.indY zp) 5 .page eorA s

/-- `EOR $nn,X`, 0x55, 4 cycles (R168, R141). -/
def execEorZpX (zp : Byte) (s : State) : Host.Outcome State Fault Refusal :=
  readOp (.zpX zp) 4 .none eorA s

/-- `EOR $hhll,Y`, 0x59, 4 cycles, one more on a page cross (R168, R146). -/
def execEorAbsY (addr : Word) (s : State) : Host.Outcome State Fault Refusal :=
  readOp (.absY addr) 4 .page eorA s

/-- `EOR $hhll,X`, 0x5D, 4 cycles, one more on a page cross (R168, R146). -/
def execEorAbsX (addr : Word) (s : State) : Host.Outcome State Fault Refusal :=
  readOp (.absX addr) 4 .page eorA s

/-! ## BIT (R169) -/

/-- `BIT $nn`, 0x24, 3 cycles (R169, R140). -/
def execBitZp (zp : Byte) (s : State) : Host.Outcome State Fault Refusal :=
  readOp (.zp zp) 3 .none bitTest s

/-- `BIT $hhll`, 0x2C, 4 cycles (R169, R142). -/
def execBitAbs (addr : Word) (s : State) : Host.Outcome State Fault Refusal :=
  readOp (.abs addr) 4 .none bitTest s

end Sys2Proof.Machine
end

