-- ==== Sys2Proof/Machine/Branch.lean ====
section
/-! DEFINITION. The eight conditional branches (43_branch.md). The selector and expected value of R105 are written out in each. Each definition is one row of the InstructionTable: its
mode, its base cycles and its extra class (R106). -/

namespace Sys2Proof.Machine

/-! ## BPL (R201) -/

/-- `BPL label`, 0x10, 2 cycles, one or two more when taken (R201, R147). -/
def execBpl (rel : Byte) (s : State) : Host.Outcome State Fault Refusal :=
  branchOp s.flags.n false rel s

/-! ## BMI (R202) -/

/-- `BMI label`, 0x30, 2 cycles, one or two more when taken (R202, R147). -/
def execBmi (rel : Byte) (s : State) : Host.Outcome State Fault Refusal :=
  branchOp s.flags.n true rel s

/-! ## BVC (R203) -/

/-- `BVC label`, 0x50, 2 cycles, one or two more when taken (R203, R147). -/
def execBvc (rel : Byte) (s : State) : Host.Outcome State Fault Refusal :=
  branchOp s.flags.v false rel s

/-! ## BVS (R204) -/

/-- `BVS label`, 0x70, 2 cycles, one or two more when taken (R204, R147). -/
def execBvs (rel : Byte) (s : State) : Host.Outcome State Fault Refusal :=
  branchOp s.flags.v true rel s

/-! ## BCC (R205) -/

/-- `BCC label`, 0x90, 2 cycles, one or two more when taken (R205, R147). -/
def execBcc (rel : Byte) (s : State) : Host.Outcome State Fault Refusal :=
  branchOp s.flags.c false rel s

/-! ## BCS (R206) -/

/-- `BCS label`, 0xB0, 2 cycles, one or two more when taken (R206, R147). -/
def execBcs (rel : Byte) (s : State) : Host.Outcome State Fault Refusal :=
  branchOp s.flags.c true rel s

/-! ## BNE (R207) -/

/-- `BNE label`, 0xD0, 2 cycles, one or two more when taken (R207, R147). -/
def execBne (rel : Byte) (s : State) : Host.Outcome State Fault Refusal :=
  branchOp s.flags.z false rel s

/-! ## BEQ (R208) -/

/-- `BEQ label`, 0xF0, 2 cycles, one or two more when taken (R208, R147). -/
def execBeq (rel : Byte) (s : State) : Host.Outcome State Fault Refusal :=
  branchOp s.flags.z true rel s

end Sys2Proof.Machine
end

