-- ==== Sys2Proof/Machine/LoadStore.lean ====
section
/-! DEFINITION. The load, store, transfer, flag and no-operation instructions (45_load_store_transfer_flag.md). Each definition is one row of the InstructionTable: its
mode, its base cycles and its extra class (R106). -/

namespace Sys2Proof.Machine

/-- LDA's effect (R230). -/
def lda (m : Byte) (s : State) : State := setANZ m s

/-- LDX's effect (R231). -/
def ldx (m : Byte) (s : State) : State := setXNZ m s

/-- LDY's effect (R232). -/
def ldy (m : Byte) (s : State) : State := setYNZ m s

/-! ## LDA (R230) -/

/-- `LDA ($nn,X)`, 0xA1, 6 cycles (R230, R144). -/
def execLdaIndX (zp : Byte) (s : State) : Host.Outcome State Fault Refusal :=
  readOp (.indX zp) 6 .none lda s

/-- `LDA $nn`, 0xA5, 3 cycles (R230, R140). -/
def execLdaZp (zp : Byte) (s : State) : Host.Outcome State Fault Refusal :=
  readOp (.zp zp) 3 .none lda s

/-- `LDA #$nn`, 0xA9, 2 cycles (R230, R139). -/
def execLdaImm (imm : Byte) (s : State) : Host.Outcome State Fault Refusal :=
  immOp imm lda s

/-- `LDA $hhll`, 0xAD, 4 cycles (R230, R142). -/
def execLdaAbs (addr : Word) (s : State) : Host.Outcome State Fault Refusal :=
  readOp (.abs addr) 4 .none lda s

/-- `LDA ($nn),Y`, 0xB1, 5 cycles, one more on a page cross (R230, R145). -/
def execLdaIndY (zp : Byte) (s : State) : Host.Outcome State Fault Refusal :=
  readOp (.indY zp) 5 .page lda s

/-- `LDA $nn,X`, 0xB5, 4 cycles (R230, R141). -/
def execLdaZpX (zp : Byte) (s : State) : Host.Outcome State Fault Refusal :=
  readOp (.zpX zp) 4 .none lda s

/-- `LDA $hhll,Y`, 0xB9, 4 cycles, one more on a page cross (R230, R146). -/
def execLdaAbsY (addr : Word) (s : State) : Host.Outcome State Fault Refusal :=
  readOp (.absY addr) 4 .page lda s

/-- `LDA $hhll,X`, 0xBD, 4 cycles, one more on a page cross (R230, R146). -/
def execLdaAbsX (addr : Word) (s : State) : Host.Outcome State Fault Refusal :=
  readOp (.absX addr) 4 .page lda s

/-! ## LDX (R231) -/

/-- `LDX #$nn`, 0xA2, 2 cycles (R231, R139). -/
def execLdxImm (imm : Byte) (s : State) : Host.Outcome State Fault Refusal :=
  immOp imm ldx s

/-- `LDX $nn`, 0xA6, 3 cycles (R231, R140). -/
def execLdxZp (zp : Byte) (s : State) : Host.Outcome State Fault Refusal :=
  readOp (.zp zp) 3 .none ldx s

/-- `LDX $hhll`, 0xAE, 4 cycles (R231, R142). -/
def execLdxAbs (addr : Word) (s : State) : Host.Outcome State Fault Refusal :=
  readOp (.abs addr) 4 .none ldx s

/-- `LDX $nn,Y`, 0xB6, 4 cycles (R231, R141). -/
def execLdxZpY (zp : Byte) (s : State) : Host.Outcome State Fault Refusal :=
  readOp (.zpY zp) 4 .none ldx s

/-- `LDX $hhll,Y`, 0xBE, 4 cycles, one more on a page cross (R231, R146). -/
def execLdxAbsY (addr : Word) (s : State) : Host.Outcome State Fault Refusal :=
  readOp (.absY addr) 4 .page ldx s

/-! ## LDY (R232) -/

/-- `LDY #$nn`, 0xA0, 2 cycles (R232, R139). -/
def execLdyImm (imm : Byte) (s : State) : Host.Outcome State Fault Refusal :=
  immOp imm ldy s

/-- `LDY $nn`, 0xA4, 3 cycles (R232, R140). -/
def execLdyZp (zp : Byte) (s : State) : Host.Outcome State Fault Refusal :=
  readOp (.zp zp) 3 .none ldy s

/-- `LDY $hhll`, 0xAC, 4 cycles (R232, R142). -/
def execLdyAbs (addr : Word) (s : State) : Host.Outcome State Fault Refusal :=
  readOp (.abs addr) 4 .none ldy s

/-- `LDY $nn,X`, 0xB4, 4 cycles (R232, R141). -/
def execLdyZpX (zp : Byte) (s : State) : Host.Outcome State Fault Refusal :=
  readOp (.zpX zp) 4 .none ldy s

/-- `LDY $hhll,X`, 0xBC, 4 cycles, one more on a page cross (R232, R146). -/
def execLdyAbsX (addr : Word) (s : State) : Host.Outcome State Fault Refusal :=
  readOp (.absX addr) 4 .page ldy s

/-! ## STA (R233) -/

/-- `STA ($nn,X)`, 0x81, 6 cycles (R233, R144). -/
def execStaIndX (zp : Byte) (s : State) : Host.Outcome State Fault Refusal :=
  storeOp (.indX zp) 6 State.a s

/-- `STA $nn`, 0x85, 3 cycles (R233, R140). -/
def execStaZp (zp : Byte) (s : State) : Host.Outcome State Fault Refusal :=
  storeOp (.zp zp) 3 State.a s

/-- `STA $hhll`, 0x8D, 4 cycles (R233, R142). -/
def execStaAbs (addr : Word) (s : State) : Host.Outcome State Fault Refusal :=
  storeOp (.abs addr) 4 State.a s

/-- `STA ($nn),Y`, 0x91, 6 cycles (R233, R145). -/
def execStaIndY (zp : Byte) (s : State) : Host.Outcome State Fault Refusal :=
  storeOp (.indY zp) 6 State.a s

/-- `STA $nn,X`, 0x95, 4 cycles (R233, R141). -/
def execStaZpX (zp : Byte) (s : State) : Host.Outcome State Fault Refusal :=
  storeOp (.zpX zp) 4 State.a s

/-- `STA $hhll,Y`, 0x99, 5 cycles (R233, R146). -/
def execStaAbsY (addr : Word) (s : State) : Host.Outcome State Fault Refusal :=
  storeOp (.absY addr) 5 State.a s

/-- `STA $hhll,X`, 0x9D, 5 cycles (R233, R146). -/
def execStaAbsX (addr : Word) (s : State) : Host.Outcome State Fault Refusal :=
  storeOp (.absX addr) 5 State.a s

/-! ## STX (R234) -/

/-- `STX $nn`, 0x86, 3 cycles (R234, R140). -/
def execStxZp (zp : Byte) (s : State) : Host.Outcome State Fault Refusal :=
  storeOp (.zp zp) 3 State.x s

/-- `STX $hhll`, 0x8E, 4 cycles (R234, R142). -/
def execStxAbs (addr : Word) (s : State) : Host.Outcome State Fault Refusal :=
  storeOp (.abs addr) 4 State.x s

/-- `STX $nn,Y`, 0x96, 4 cycles (R234, R141). -/
def execStxZpY (zp : Byte) (s : State) : Host.Outcome State Fault Refusal :=
  storeOp (.zpY zp) 4 State.x s

/-! ## STY (R235) -/

/-- `STY $nn`, 0x84, 3 cycles (R235, R140). -/
def execStyZp (zp : Byte) (s : State) : Host.Outcome State Fault Refusal :=
  storeOp (.zp zp) 3 State.y s

/-- `STY $hhll`, 0x8C, 4 cycles (R235, R142). -/
def execStyAbs (addr : Word) (s : State) : Host.Outcome State Fault Refusal :=
  storeOp (.abs addr) 4 State.y s

/-- `STY $nn,X`, 0x94, 4 cycles (R235, R141). -/
def execStyZpX (zp : Byte) (s : State) : Host.Outcome State Fault Refusal :=
  storeOp (.zpX zp) 4 State.y s

/-! ## TAX (R236) -/

/-- `TAX`, 0xAA, 2 cycles (R236). -/
def execTax (s : State) : Host.Outcome State Fault Refusal :=
  finish (setXNZ s.a s) 2

/-! ## TAY (R237) -/

/-- `TAY`, 0xA8, 2 cycles (R237). -/
def execTay (s : State) : Host.Outcome State Fault Refusal :=
  finish (setYNZ s.a s) 2

/-! ## TXA (R238) -/

/-- `TXA`, 0x8A, 2 cycles (R238). -/
def execTxa (s : State) : Host.Outcome State Fault Refusal :=
  finish (setANZ s.x s) 2

/-! ## TYA (R239) -/

/-- `TYA`, 0x98, 2 cycles (R239). -/
def execTya (s : State) : Host.Outcome State Fault Refusal :=
  finish (setANZ s.y s) 2

/-! ## TSX (R240) -/

/-- `TSX`, 0xBA, 2 cycles (R240). -/
def execTsx (s : State) : Host.Outcome State Fault Refusal :=
  finish (setXNZ s.sp s) 2

/-! ## TXS (R241) -/

/-- `TXS`, 0x9A, 2 cycles (R241). -/
def execTxs (s : State) : Host.Outcome State Fault Refusal :=
  finish (s.setSp s.x) 2

/-! ## CLC (R242) -/

/-- `CLC`, 0x18, 2 cycles (R242). -/
def execClc (s : State) : Host.Outcome State Fault Refusal :=
  finish (s.setFlags { s.flags with c := false }) 2

/-! ## SEC (R243) -/

/-- `SEC`, 0x38, 2 cycles (R243). -/
def execSec (s : State) : Host.Outcome State Fault Refusal :=
  finish (s.setFlags { s.flags with c := true }) 2

/-! ## CLI (R244) -/

/-- `CLI`, 0x58, 2 cycles (R244). -/
def execCli (s : State) : Host.Outcome State Fault Refusal :=
  finish (s.setFlags { s.flags with i := false }) 2

/-! ## SEI (R245) -/

/-- `SEI`, 0x78, 2 cycles (R245). -/
def execSei (s : State) : Host.Outcome State Fault Refusal :=
  finish (s.setFlags { s.flags with i := true }) 2

/-! ## CLV (R246) -/

/-- `CLV`, 0xB8, 2 cycles (R246). -/
def execClv (s : State) : Host.Outcome State Fault Refusal :=
  finish (s.setFlags { s.flags with v := false }) 2

/-! ## CLD (R247) -/

/-- `CLD`, 0xD8, 2 cycles (R247). -/
def execCld (s : State) : Host.Outcome State Fault Refusal :=
  finish (s.setFlags { s.flags with d := false }) 2

/-! ## SED (R248) -/

/-- `SED`, 0xF8, 2 cycles (R248). -/
def execSed (s : State) : Host.Outcome State Fault Refusal :=
  finish (s.setFlags { s.flags with d := true }) 2

/-! ## NOP (R249) -/

/-- `NOP`, 0xEA, 2 cycles (R249). -/
def execNop (s : State) : Host.Outcome State Fault Refusal :=
  finish s 2

end Sys2Proof.Machine
end

