-- ==== Sys2Proof/Machine/Shift.lean ====
section
/-! DEFINITION. The shift, rotate, increment and decrement instructions (42_shift_and_incdec.md): every row of ASL, LSR, ROL,
ROR, INC, DEC, INX, INY, DEX and DEY. Each definition is one row of the InstructionTable: its
mode, its base cycles and its extra class (R106). -/

namespace Sys2Proof.Machine

/-! ## ASL (R181) -/

/-- `ASL $nn`, 0x06, 5 cycles (R181, R140). -/
def execAslZp (zp : Byte) (s : State) : Host.Outcome State Fault Refusal :=
  rmwOp (.zp zp) 5 shiftLeft s

/-- `ASL A`, 0x0A, 2 cycles (R181, R138). -/
def execAslAcc (s : State) : Host.Outcome State Fault Refusal :=
  accOp shiftLeft s

/-- `ASL $hhll`, 0x0E, 6 cycles (R181, R142). -/
def execAslAbs (addr : Word) (s : State) : Host.Outcome State Fault Refusal :=
  rmwOp (.abs addr) 6 shiftLeft s

/-- `ASL $nn,X`, 0x16, 6 cycles (R181, R141). -/
def execAslZpX (zp : Byte) (s : State) : Host.Outcome State Fault Refusal :=
  rmwOp (.zpX zp) 6 shiftLeft s

/-- `ASL $hhll,X`, 0x1E, 7 cycles (R181, R146). -/
def execAslAbsX (addr : Word) (s : State) : Host.Outcome State Fault Refusal :=
  rmwOp (.absX addr) 7 shiftLeft s

/-! ## LSR (R182) -/

/-- `LSR $nn`, 0x46, 5 cycles (R182, R140). -/
def execLsrZp (zp : Byte) (s : State) : Host.Outcome State Fault Refusal :=
  rmwOp (.zp zp) 5 shiftRight s

/-- `LSR A`, 0x4A, 2 cycles (R182, R138). -/
def execLsrAcc (s : State) : Host.Outcome State Fault Refusal :=
  accOp shiftRight s

/-- `LSR $hhll`, 0x4E, 6 cycles (R182, R142). -/
def execLsrAbs (addr : Word) (s : State) : Host.Outcome State Fault Refusal :=
  rmwOp (.abs addr) 6 shiftRight s

/-- `LSR $nn,X`, 0x56, 6 cycles (R182, R141). -/
def execLsrZpX (zp : Byte) (s : State) : Host.Outcome State Fault Refusal :=
  rmwOp (.zpX zp) 6 shiftRight s

/-- `LSR $hhll,X`, 0x5E, 7 cycles (R182, R146). -/
def execLsrAbsX (addr : Word) (s : State) : Host.Outcome State Fault Refusal :=
  rmwOp (.absX addr) 7 shiftRight s

/-! ## ROL (R183) -/

/-- `ROL $nn`, 0x26, 5 cycles (R183, R140). -/
def execRolZp (zp : Byte) (s : State) : Host.Outcome State Fault Refusal :=
  rmwOp (.zp zp) 5 rotateLeft s

/-- `ROL A`, 0x2A, 2 cycles (R183, R138). -/
def execRolAcc (s : State) : Host.Outcome State Fault Refusal :=
  accOp rotateLeft s

/-- `ROL $hhll`, 0x2E, 6 cycles (R183, R142). -/
def execRolAbs (addr : Word) (s : State) : Host.Outcome State Fault Refusal :=
  rmwOp (.abs addr) 6 rotateLeft s

/-- `ROL $nn,X`, 0x36, 6 cycles (R183, R141). -/
def execRolZpX (zp : Byte) (s : State) : Host.Outcome State Fault Refusal :=
  rmwOp (.zpX zp) 6 rotateLeft s

/-- `ROL $hhll,X`, 0x3E, 7 cycles (R183, R146). -/
def execRolAbsX (addr : Word) (s : State) : Host.Outcome State Fault Refusal :=
  rmwOp (.absX addr) 7 rotateLeft s

/-! ## ROR (R184) -/

/-- `ROR $nn`, 0x66, 5 cycles (R184, R140). -/
def execRorZp (zp : Byte) (s : State) : Host.Outcome State Fault Refusal :=
  rmwOp (.zp zp) 5 rotateRight s

/-- `ROR A`, 0x6A, 2 cycles (R184, R138). -/
def execRorAcc (s : State) : Host.Outcome State Fault Refusal :=
  accOp rotateRight s

/-- `ROR $hhll`, 0x6E, 6 cycles (R184, R142). -/
def execRorAbs (addr : Word) (s : State) : Host.Outcome State Fault Refusal :=
  rmwOp (.abs addr) 6 rotateRight s

/-- `ROR $nn,X`, 0x76, 6 cycles (R184, R141). -/
def execRorZpX (zp : Byte) (s : State) : Host.Outcome State Fault Refusal :=
  rmwOp (.zpX zp) 6 rotateRight s

/-- `ROR $hhll,X`, 0x7E, 7 cycles (R184, R146). -/
def execRorAbsX (addr : Word) (s : State) : Host.Outcome State Fault Refusal :=
  rmwOp (.absX addr) 7 rotateRight s

/-! ## INC (R185) -/

/-- `INC $nn`, 0xE6, 5 cycles (R185, R140). -/
def execIncZp (zp : Byte) (s : State) : Host.Outcome State Fault Refusal :=
  rmwOp (.zp zp) 5 increment s

/-- `INC $hhll`, 0xEE, 6 cycles (R185, R142). -/
def execIncAbs (addr : Word) (s : State) : Host.Outcome State Fault Refusal :=
  rmwOp (.abs addr) 6 increment s

/-- `INC $nn,X`, 0xF6, 6 cycles (R185, R141). -/
def execIncZpX (zp : Byte) (s : State) : Host.Outcome State Fault Refusal :=
  rmwOp (.zpX zp) 6 increment s

/-- `INC $hhll,X`, 0xFE, 7 cycles (R185, R146). -/
def execIncAbsX (addr : Word) (s : State) : Host.Outcome State Fault Refusal :=
  rmwOp (.absX addr) 7 increment s

/-! ## DEC (R186) -/

/-- `DEC $nn`, 0xC6, 5 cycles (R186, R140). -/
def execDecZp (zp : Byte) (s : State) : Host.Outcome State Fault Refusal :=
  rmwOp (.zp zp) 5 decrement s

/-- `DEC $hhll`, 0xCE, 6 cycles (R186, R142). -/
def execDecAbs (addr : Word) (s : State) : Host.Outcome State Fault Refusal :=
  rmwOp (.abs addr) 6 decrement s

/-- `DEC $nn,X`, 0xD6, 6 cycles (R186, R141). -/
def execDecZpX (zp : Byte) (s : State) : Host.Outcome State Fault Refusal :=
  rmwOp (.zpX zp) 6 decrement s

/-- `DEC $hhll,X`, 0xDE, 7 cycles (R186, R146). -/
def execDecAbsX (addr : Word) (s : State) : Host.Outcome State Fault Refusal :=
  rmwOp (.absX addr) 7 decrement s

/-! ## INX (R187) -/

/-- `INX`, 0xE8, 2 cycles (R187). -/
def execInx (s : State) : Host.Outcome State Fault Refusal :=
  finish (setXNZ (s.x + 1) s) 2

/-! ## INY (R188) -/

/-- `INY`, 0xC8, 2 cycles (R188). -/
def execIny (s : State) : Host.Outcome State Fault Refusal :=
  finish (setYNZ (s.y + 1) s) 2

/-! ## DEX (R189) -/

/-- `DEX`, 0xCA, 2 cycles (R189). -/
def execDex (s : State) : Host.Outcome State Fault Refusal :=
  finish (setXNZ (s.x - 1) s) 2

/-! ## DEY (R190) -/

/-- `DEY`, 0x88, 2 cycles (R190). -/
def execDey (s : State) : Host.Outcome State Fault Refusal :=
  finish (setYNZ (s.y - 1) s) 2

end Sys2Proof.Machine
end

