-- ==== Sys2Proof/Machine/StackJump.lean ====
section
/-! DEFINITION. The stack, jump, subroutine and software-interrupt instructions (44_stack_jump_interrupt.md): PHA, PHP,
PLA, PLP, JSR, RTS, JMP, BRK and RTI. Each definition is one row of the InstructionTable: its
mode, its base cycles and its extra class (R106). -/

namespace Sys2Proof.Machine

/-- PLA's effect (R213). -/
def pullA (s : State) : Except Fault State := do
  let (v, s1) ← s.pull
  return setANZ v s1

/-- PLP's effect (R214). -/
def pullFlags (s : State) : Except Fault State := do
  let (v, s1) ← s.pull
  return s1.setFlags (Flags.unpack v)

/-- JSR's effect: push the address of its last byte, then jump (R215). -/
def callSubroutine (addr : Word) (s : State) : State := (s.pushWord (s.pc - 1)).setPc addr

/-- RTS's effect: the pulled word plus one (R216). -/
def returnFromSubroutine (s : State) : Except Fault State := do
  let (w, s1) ← s.pullWord
  return s1.setPc (w + 1)

/-- JMP indirect's effect (R143, R217). -/
def jumpIndirect (ptr : Word) (s : State) : Except Fault State := do
  let (ea, s1) ← s.readIndirect ptr
  return s1.setPc ea

/-! ## PHA (R211) -/

/-- `PHA`, 0x48, 3 cycles (R211). -/
def execPha (s : State) : Host.Outcome State Fault Refusal :=
  finish (s.push s.a) 3

/-! ## PHP (R212) -/

/-- `PHP`, 0x08, 3 cycles (R212). -/
def execPhp (s : State) : Host.Outcome State Fault Refusal :=
  finish (s.push (s.flags.pack true)) 3

/-! ## PLA (R213) -/

/-- `PLA`, 0x68, 4 cycles (R213). -/
def execPla (s : State) : Host.Outcome State Fault Refusal :=
  finishRead (pullA s) 4

/-! ## PLP (R214) -/

/-- `PLP`, 0x28, 4 cycles (R214). -/
def execPlp (s : State) : Host.Outcome State Fault Refusal :=
  finishRead (pullFlags s) 4

/-! ## JSR (R215) -/

/-- `JSR $hhll`, 0x20, 6 cycles (R215, R142). -/
def execJsr (addr : Word) (s : State) : Host.Outcome State Fault Refusal :=
  finish (callSubroutine addr s) 6

/-! ## RTS (R216) -/

/-- `RTS`, 0x60, 6 cycles (R216). -/
def execRts (s : State) : Host.Outcome State Fault Refusal :=
  finishRead (returnFromSubroutine s) 6

/-! ## JMP (R217) -/

/-- `JMP $hhll`, 0x4C, 3 cycles (R217, R142). -/
def execJmpAbs (addr : Word) (s : State) : Host.Outcome State Fault Refusal :=
  finish (s.setPc addr) 3

/-- `JMP ($hhll)`, 0x6C, 5 cycles (R217, R143). -/
def execJmpInd (ptr : Word) (s : State) : Host.Outcome State Fault Refusal :=
  finishRead (jumpIndirect ptr s) 5

/-! ## BRK (R218) -/

/-- `BRK`, 0x00, 7 cycles (R218). -/
def execBrk (s : State) : Host.Outcome State Fault Refusal :=
  finishRead (s.enterInterrupt (s.pc + 1) true irqVector) 7

/-! ## RTI (R219) -/

/-- `RTI`, 0x40, 6 cycles (R219). -/
def execRti (s : State) : Host.Outcome State Fault Refusal :=
  finishRead s.returnFromInterrupt 6

end Sys2Proof.Machine
end

