-- ==== Sys2Proof/Machine/Unassigned.lean ====
section
/-! DEFINITION. The unassigned opcodes (46_unassigned.md). -/

namespace Sys2Proof.Machine

/-- `raise Anomaly((start_pc, op))`: append to the log and continue (R270, R271). -/
def State.raiseAnomaly (s : State) (startPc : Word) (op : Byte) : State :=
  s.setAnomalies (s.anomalies ++ [(startPc, op)])

/-- Any of the 105 unassigned bytes: log its address, the one before PC, and the byte; 1 cycle (R270). -/
def execUnassigned (op : Byte) (s : State) : Host.Outcome State Fault Refusal :=
  finish (s.raiseAnomaly (s.pc - 1) op) 1

end Sys2Proof.Machine
end

