-- ==== Sys2Proof/Machine/Step.lean ====
section
/-! DEFINITION. One iteration of the console loop (R326), and where a placed instruction lies for it. -/

namespace Sys2Proof.Machine

/-- `ConsoleStep()` (R326): no step once faulted (R24); a pending NMI first, then IRQ when its level is 1 and I is 0
(R310, R311), else one instruction (R130); then the PPU tick for the cycles it took. -/
def step (s : State) : Host.Outcome State Fault Refusal :=
  match s.faulted with
  | some e => .fault (s.raise e)
  | none =>
    if s.nmiPending then tickAfter s (interruptEntry nmiVector (s.setNmiPending false))
    else if s.irqLine && !s.flags.i then tickAfter s (interruptEntry irqVector s)
    else
      match s.fetchInstr with
      | .ok (i, s1) => tickAfter s (exec i s1)
      | .error r => .fault r

/-- `s` with the instruction whose bits are `w` stored where `step` fetches its next instruction (log 5). -/
def State.withFetchWord (s : State) (nbits w : Nat) : State := s.placeInstr (tableBytes nbits w)

end Sys2Proof.Machine
end

