-- ==== Sys2Proof/Machine/Loader.lean ====
section
/-! DEFINITION. The loader's contract (R365) and the core's load check (R366). -/

namespace Sys2Proof.Machine

/-- Why a load fails; no machine exists then (R365, R366, log 22). -/
inductive LoadError where
  /-- Shorter than the header, or than the sizes it gives (R365). -/
  | truncated
  /-- The first four bytes are not 4E 45 53 1A (R365). -/
  | badMagic
  /-- A mapper other than the fixed one (R366). -/
  | unsupportedMapper (id : Byte)
  /-- A PRG that is not one or two units (R366). -/
  | unsupportedPrg (units : Byte)
  deriving DecidableEq, Repr

/-- The mapper identifier from header bytes 6 and 7 (R365, D25). -/
def mapperId (h6 h7 : Byte) : Byte := (h7 &&& 0xF0#8) ||| (h6 >>> 4)

/-- Bytes of trainer after the header: 512 when bit 2 of byte 6 is set (R365). -/
def trainerLength (h6 : Byte) : Nat := if h6.getLsbD 2 then 512 else 0

/-- The PRG sizes the core accepts (R366). -/
def prgBanksOf (units : Byte) : Option PrgBanks :=
  if units = 1 then some .one else if units = 2 then some .two else none

/-- A cartridge from the bytes after the header: trainer skipped, PRG, CHR, surplus ignored (R365). -/
def cartridgeOf (banks : PrgBanks) (prgUnits chrUnits : Nat) (body : List Byte) : Cartridge :=
  { prgBanks := banks
    prg := Memory.ofBytes 0 (body.take (16384 * prgUnits))
    chrUnits := chrUnits
    chr := Memory.ofBytes 0 ((body.drop (16384 * prgUnits)).take (8192 * chrUnits)) }

/-- Load a file: its 16-byte header, its length, its mapper and its PRG size are checked, then the stores are taken
(R365, R366). -/
def loadCartridge (file : List Byte) : Except LoadError Cartridge :=
  match file with
  | h0 :: h1 :: h2 :: h3 :: h4 :: h5 :: h6 :: h7 :: _ :: _ :: _ :: _ :: _ :: _ :: _ :: _ :: rest =>
    if h0 ≠ 0x4E ∨ h1 ≠ 0x45 ∨ h2 ≠ 0x53 ∨ h3 ≠ 0x1A then .error .badMagic
    else if rest.length < trainerLength h6 + 16384 * h4.toNat + 8192 * h5.toNat then .error .truncated
    else if mapperId h6 h7 ≠ 0 then .error (.unsupportedMapper (mapperId h6 h7))
    else
      match prgBanksOf h4 with
      | some banks => .ok (cartridgeOf banks h4.toNat h5.toNat (rest.drop (trainerLength h6)))
      | none => .error (.unsupportedPrg h4)
  | _ => .error .truncated

end Sys2Proof.Machine
end

