-- ==== Sys2Proof/Safety.lean ====
section
/-! DEFINITION. What counts as a well-kept machine and a safe run, and the terms the statements about it use. -/

namespace Sys2Proof

/-- The operations of the InstructionTable (R100): the 56 mnemonics, and the one behaviour of the unassigned bytes. -/
inductive Operation where
  | adc | sbc | cmp | cpx | cpy | and | ora | eor | bit | asl | lsr | rol | ror | inc
  | dec | inx | iny | dex | dey | bpl | bmi | bvc | bvs | bcc | bcs | bne | beq | pha
  | php | pla | plp | jsr | rts | jmp | brk | rti | lda | ldx | ldy | sta | stx | sty
  | tax | tay | txa | tya | tsx | txs | clc | sec | cli | sei | clv | cld | sed | nop
  | unassigned
  deriving DecidableEq, Repr

/-- The operation of an instruction's table entry (R106). -/
def Instr.operation : Instr → Operation
  | .adcIndX _ | .adcZp _ | .adcImm _ | .adcAbs _ | .adcIndY _ | .adcZpX _ | .adcAbsY _ | .adcAbsX _ => .adc
  | .sbcIndX _ | .sbcZp _ | .sbcImm _ | .sbcAbs _ | .sbcIndY _ | .sbcZpX _ | .sbcAbsY _ | .sbcAbsX _ => .sbc
  | .cmpIndX _ | .cmpZp _ | .cmpImm _ | .cmpAbs _ | .cmpIndY _ | .cmpZpX _ | .cmpAbsY _ | .cmpAbsX _ => .cmp
  | .cpxImm _ | .cpxZp _ | .cpxAbs _ => .cpx
  | .cpyImm _ | .cpyZp _ | .cpyAbs _ => .cpy
  | .andIndX _ | .andZp _ | .andImm _ | .andAbs _ | .andIndY _ | .andZpX _ | .andAbsY _ | .andAbsX _ => .and
  | .oraIndX _ | .oraZp _ | .oraImm _ | .oraAbs _ | .oraIndY _ | .oraZpX _ | .oraAbsY _ | .oraAbsX _ => .ora
  | .eorIndX _ | .eorZp _ | .eorImm _ | .eorAbs _ | .eorIndY _ | .eorZpX _ | .eorAbsY _ | .eorAbsX _ => .eor
  | .bitZp _ | .bitAbs _ => .bit
  | .aslZp _ | .aslAcc | .aslAbs _ | .aslZpX _ | .aslAbsX _ => .asl
  | .lsrZp _ | .lsrAcc | .lsrAbs _ | .lsrZpX _ | .lsrAbsX _ => .lsr
  | .rolZp _ | .rolAcc | .rolAbs _ | .rolZpX _ | .rolAbsX _ => .rol
  | .rorZp _ | .rorAcc | .rorAbs _ | .rorZpX _ | .rorAbsX _ => .ror
  | .incZp _ | .incAbs _ | .incZpX _ | .incAbsX _ => .inc
  | .decZp _ | .decAbs _ | .decZpX _ | .decAbsX _ => .dec
  | .inx => .inx
  | .iny => .iny
  | .dex => .dex
  | .dey => .dey
  | .bpl _ => .bpl
  | .bmi _ => .bmi
  | .bvc _ => .bvc
  | .bvs _ => .bvs
  | .bcc _ => .bcc
  | .bcs _ => .bcs
  | .bne _ => .bne
  | .beq _ => .beq
  | .pha => .pha
  | .php => .php
  | .pla => .pla
  | .plp => .plp
  | .jsr _ => .jsr
  | .rts => .rts
  | .jmpAbs _ | .jmpInd _ => .jmp
  | .brk => .brk
  | .rti => .rti
  | .ldaIndX _ | .ldaZp _ | .ldaImm _ | .ldaAbs _ | .ldaIndY _ | .ldaZpX _ | .ldaAbsY _ | .ldaAbsX _ => .lda
  | .ldxImm _ | .ldxZp _ | .ldxAbs _ | .ldxZpY _ | .ldxAbsY _ => .ldx
  | .ldyImm _ | .ldyZp _ | .ldyAbs _ | .ldyZpX _ | .ldyAbsX _ => .ldy
  | .staIndX _ | .staZp _ | .staAbs _ | .staIndY _ | .staZpX _ | .staAbsY _ | .staAbsX _ => .sta
  | .stxZp _ | .stxAbs _ | .stxZpY _ => .stx
  | .styZp _ | .styAbs _ | .styZpX _ => .sty
  | .tax => .tax
  | .tay => .tay
  | .txa => .txa
  | .tya => .tya
  | .tsx => .tsx
  | .txs => .txs
  | .clc => .clc
  | .sec => .sec
  | .cli => .cli
  | .sei => .sei
  | .clv => .clv
  | .cld => .cld
  | .sed => .sed
  | .nop => .nop
  | .unassigned _ => .unassigned

/-- The addressing mode through which an instruction writes memory: the write and the read-modify-write classes in a memory
mode (R133); none for every other instruction. -/
def Instr.writeMode : Instr → Option Machine.MemMode
  | .aslZp zp => some (.zp zp)
  | .aslAbs addr => some (.abs addr)
  | .aslZpX zp => some (.zpX zp)
  | .aslAbsX addr => some (.absX addr)
  | .lsrZp zp => some (.zp zp)
  | .lsrAbs addr => some (.abs addr)
  | .lsrZpX zp => some (.zpX zp)
  | .lsrAbsX addr => some (.absX addr)
  | .rolZp zp => some (.zp zp)
  | .rolAbs addr => some (.abs addr)
  | .rolZpX zp => some (.zpX zp)
  | .rolAbsX addr => some (.absX addr)
  | .rorZp zp => some (.zp zp)
  | .rorAbs addr => some (.abs addr)
  | .rorZpX zp => some (.zpX zp)
  | .rorAbsX addr => some (.absX addr)
  | .incZp zp => some (.zp zp)
  | .incAbs addr => some (.abs addr)
  | .incZpX zp => some (.zpX zp)
  | .incAbsX addr => some (.absX addr)
  | .decZp zp => some (.zp zp)
  | .decAbs addr => some (.abs addr)
  | .decZpX zp => some (.zpX zp)
  | .decAbsX addr => some (.absX addr)
  | .staIndX zp => some (.indX zp)
  | .staZp zp => some (.zp zp)
  | .staAbs addr => some (.abs addr)
  | .staIndY zp => some (.indY zp)
  | .staZpX zp => some (.zpX zp)
  | .staAbsY addr => some (.absY addr)
  | .staAbsX addr => some (.absX addr)
  | .stxZp zp => some (.zp zp)
  | .stxAbs addr => some (.abs addr)
  | .stxZpY zp => some (.zpY zp)
  | .styZp zp => some (.zp zp)
  | .styAbs addr => some (.abs addr)
  | .styZpX zp => some (.zpX zp)
  | .adcIndX _ | .adcZp _ | .adcImm _ | .adcAbs _ | .adcIndY _ => none
  | .adcZpX _ | .adcAbsY _ | .adcAbsX _ | .sbcIndX _ | .sbcZp _ => none
  | .sbcImm _ | .sbcAbs _ | .sbcIndY _ | .sbcZpX _ | .sbcAbsY _ => none
  | .sbcAbsX _ | .cmpIndX _ | .cmpZp _ | .cmpImm _ | .cmpAbs _ => none
  | .cmpIndY _ | .cmpZpX _ | .cmpAbsY _ | .cmpAbsX _ | .cpxImm _ => none
  | .cpxZp _ | .cpxAbs _ | .cpyImm _ | .cpyZp _ | .cpyAbs _ => none
  | .andIndX _ | .andZp _ | .andImm _ | .andAbs _ | .andIndY _ => none
  | .andZpX _ | .andAbsY _ | .andAbsX _ | .oraIndX _ | .oraZp _ => none
  | .oraImm _ | .oraAbs _ | .oraIndY _ | .oraZpX _ | .oraAbsY _ => none
  | .oraAbsX _ | .eorIndX _ | .eorZp _ | .eorImm _ | .eorAbs _ => none
  | .eorIndY _ | .eorZpX _ | .eorAbsY _ | .eorAbsX _ | .bitZp _ => none
  | .bitAbs _ | .aslAcc | .lsrAcc | .rolAcc | .rorAcc => none
  | .inx | .iny | .dex | .dey | .bpl _ => none
  | .bmi _ | .bvc _ | .bvs _ | .bcc _ | .bcs _ => none
  | .bne _ | .beq _ | .pha | .php | .pla => none
  | .plp | .jsr _ | .rts | .jmpAbs _ | .jmpInd _ => none
  | .brk | .rti | .ldaIndX _ | .ldaZp _ | .ldaImm _ => none
  | .ldaAbs _ | .ldaIndY _ | .ldaZpX _ | .ldaAbsY _ | .ldaAbsX _ => none
  | .ldxImm _ | .ldxZp _ | .ldxAbs _ | .ldxZpY _ | .ldxAbsY _ => none
  | .ldyImm _ | .ldyZp _ | .ldyAbs _ | .ldyZpX _ | .ldyAbsX _ => none
  | .tax | .tay | .txa | .tya | .tsx => none
  | .txs | .clc | .sec | .cli | .sei => none
  | .clv | .cld | .sed | .nop => none
  | .unassigned _ => none

/-- The addressing mode through which an instruction reads its operand from memory (R133): read and read-modify-write
classes in a memory mode. -/
def Instr.readMode : Instr → Option Machine.MemMode
  | .adcIndX zp => some (.indX zp)
  | .adcZp zp => some (.zp zp)
  | .adcAbs addr => some (.abs addr)
  | .adcIndY zp => some (.indY zp)
  | .adcZpX zp => some (.zpX zp)
  | .adcAbsY addr => some (.absY addr)
  | .adcAbsX addr => some (.absX addr)
  | .sbcIndX zp => some (.indX zp)
  | .sbcZp zp => some (.zp zp)
  | .sbcAbs addr => some (.abs addr)
  | .sbcIndY zp => some (.indY zp)
  | .sbcZpX zp => some (.zpX zp)
  | .sbcAbsY addr => some (.absY addr)
  | .sbcAbsX addr => some (.absX addr)
  | .cmpIndX zp => some (.indX zp)
  | .cmpZp zp => some (.zp zp)
  | .cmpAbs addr => some (.abs addr)
  | .cmpIndY zp => some (.indY zp)
  | .cmpZpX zp => some (.zpX zp)
  | .cmpAbsY addr => some (.absY addr)
  | .cmpAbsX addr => some (.absX addr)
  | .cpxZp zp => some (.zp zp)
  | .cpxAbs addr => some (.abs addr)
  | .cpyZp zp => some (.zp zp)
  | .cpyAbs addr => some (.abs addr)
  | .andIndX zp => some (.indX zp)
  | .andZp zp => some (.zp zp)
  | .andAbs addr => some (.abs addr)
  | .andIndY zp => some (.indY zp)
  | .andZpX zp => some (.zpX zp)
  | .andAbsY addr => some (.absY addr)
  | .andAbsX addr => some (.absX addr)
  | .oraIndX zp => some (.indX zp)
  | .oraZp zp => some (.zp zp)
  | .oraAbs addr => some (.abs addr)
  | .oraIndY zp => some (.indY zp)
  | .oraZpX zp => some (.zpX zp)
  | .oraAbsY addr => some (.absY addr)
  | .oraAbsX addr => some (.absX addr)
  | .eorIndX zp => some (.indX zp)
  | .eorZp zp => some (.zp zp)
  | .eorAbs addr => some (.abs addr)
  | .eorIndY zp => some (.indY zp)
  | .eorZpX zp => some (.zpX zp)
  | .eorAbsY addr => some (.absY addr)
  | .eorAbsX addr => some (.absX addr)
  | .bitZp zp => some (.zp zp)
  | .bitAbs addr => some (.abs addr)
  | .aslZp zp => some (.zp zp)
  | .aslAbs addr => some (.abs addr)
  | .aslZpX zp => some (.zpX zp)
  | .aslAbsX addr => some (.absX addr)
  | .lsrZp zp => some (.zp zp)
  | .lsrAbs addr => some (.abs addr)
  | .lsrZpX zp => some (.zpX zp)
  | .lsrAbsX addr => some (.absX addr)
  | .rolZp zp => some (.zp zp)
  | .rolAbs addr => some (.abs addr)
  | .rolZpX zp => some (.zpX zp)
  | .rolAbsX addr => some (.absX addr)
  | .rorZp zp => some (.zp zp)
  | .rorAbs addr => some (.abs addr)
  | .rorZpX zp => some (.zpX zp)
  | .rorAbsX addr => some (.absX addr)
  | .incZp zp => some (.zp zp)
  | .incAbs addr => some (.abs addr)
  | .incZpX zp => some (.zpX zp)
  | .incAbsX addr => some (.absX addr)
  | .decZp zp => some (.zp zp)
  | .decAbs addr => some (.abs addr)
  | .decZpX zp => some (.zpX zp)
  | .decAbsX addr => some (.absX addr)
  | .ldaIndX zp => some (.indX zp)
  | .ldaZp zp => some (.zp zp)
  | .ldaAbs addr => some (.abs addr)
  | .ldaIndY zp => some (.indY zp)
  | .ldaZpX zp => some (.zpX zp)
  | .ldaAbsY addr => some (.absY addr)
  | .ldaAbsX addr => some (.absX addr)
  | .ldxZp zp => some (.zp zp)
  | .ldxAbs addr => some (.abs addr)
  | .ldxZpY zp => some (.zpY zp)
  | .ldxAbsY addr => some (.absY addr)
  | .ldyZp zp => some (.zp zp)
  | .ldyAbs addr => some (.abs addr)
  | .ldyZpX zp => some (.zpX zp)
  | .ldyAbsX addr => some (.absX addr)
  | .adcImm _ | .sbcImm _ | .cmpImm _ | .cpxImm _ | .cpyImm _ => none
  | .andImm _ | .oraImm _ | .eorImm _ | .aslAcc | .lsrAcc => none
  | .rolAcc | .rorAcc | .inx | .iny | .dex => none
  | .dey | .bpl _ | .bmi _ | .bvc _ | .bvs _ => none
  | .bcc _ | .bcs _ | .bne _ | .beq _ | .pha => none
  | .php | .pla | .plp | .jsr _ | .rts => none
  | .jmpAbs _ | .jmpInd _ | .brk | .rti | .ldaImm _ => none
  | .ldxImm _ | .ldyImm _ | .staIndX _ | .staZp _ | .staAbs _ => none
  | .staIndY _ | .staZpX _ | .staAbsY _ | .staAbsX _ | .stxZp _ => none
  | .stxAbs _ | .stxZpY _ | .styZp _ | .styAbs _ | .styZpX _ => none
  | .tax | .tay | .txa | .tya | .tsx => none
  | .txs | .clc | .sec | .cli | .sei => none
  | .clv | .cld | .sed | .nop => none
  | .unassigned _ => none

end Sys2Proof

namespace Sys2Proof.Machine

/-! ## The invariant -/

/-- Every byte store is in canonical form within its own bounds, and the PPU's counters are in range (R19, R26, R27). -/
abbrev State.Inv (s : State) : Prop :=
  (s.ram.wf = true ∧ s.ram.below 0x0800 = true) ∧
  (s.cart.prg.wf = true ∧ s.cart.prg.below s.cart.prgLength = true) ∧
  (s.cart.chr.wf = true ∧ s.cart.chr.below s.cart.chrLength = true) ∧
  (s.ppu.oam.wf = true ∧ s.ppu.oam.below 256 = true) ∧
  (s.ppu.oam2.wf = true ∧ s.ppu.oam2.below 32 = true) ∧
  (s.ppu.vram.wf = true ∧ s.ppu.vram.below 2048 = true) ∧
  s.ppu.scanline ≤ 261 ∧ s.ppu.dot ≤ 340

/-- The machine can take a step whatever it meets: it is not faulted and the cartridge has CHR (R24, R62). -/
abbrev State.Live (s : State) : Prop := s.faulted = none ∧ 0 < s.cart.chrUnits

/-- A step after which the machine stands: a next state, no new anomaly logged (R271). -/
def SafeStep (s : State) : Prop := ∃ t, step s = .next t ∧ t.anomalies = s.anomalies

/-! ## What the statements speak of -/

/-- Two bus addresses name one writable byte: RAM, through its mirrors (R51). -/
def sameRamByte (a b : Word) : Prop := a.toNat < 0x2000 ∧ b.toNat < 0x2000 ∧ a.toNat % 0x0800 = b.toNat % 0x0800

/-- The addresses an instruction stores to from `s`: the target its mode resolves, or the stack bytes it pushes. -/
def storedAddrs (i : Instr) (s : State) : List Word :=
  match i.writeMode with
  | some mode =>
    match s.resolve mode with
    | .ok (t, _) => [t.ea]
    | .error _ => []
  | none =>
    match i.operation with
    | .pha => [stackAddr s.sp]
    | .php => [stackAddr s.sp]
    | .jsr => [stackAddr s.sp, stackAddr (s.sp - 1)]
    | .brk => [stackAddr s.sp, stackAddr (s.sp - 1), stackAddr (s.sp - 2)]
    | _ => []

/-- An address of the PPU register window (R52). -/
def inPpuWindow (a : Word) : Prop := 0x2000 ≤ a.toNat ∧ a.toNat < 0x4000

/-- An address of PPUDATA, register 7 of the window. -/
def isPpuData (a : Word) : Prop := inPpuWindow a ∧ a.toNat % 8 = 7

/-- The first `n` bytes at PC as `n` fetches read them: each over the bus, PC one on after it (R11, R72, R101). -/
def fetchedBytes : Nat → State → Except Fault (List Byte × State)
  | 0, s => .ok ([], s)
  | n + 1, s =>
    match s.busRead s.pc with
    | .error e => .error e
    | .ok (b, s1) =>
      match fetchedBytes n { s1 with pc := s.pc + 1 } with
      | .error e => .error e
      | .ok (bs, s2) => .ok (b :: bs, s2)

/-- The word a vector holds, read from PRG: low byte at the vector, high byte after it (R63, R66). -/
def vectorWord (c : Cartridge) (vector : Word) : Word :=
  c.prg.read (c.prgOffset (vector + 1)) ++ c.prg.read (c.prgOffset vector)

/-- 1 for a set flag, 0 for a clear one. -/
def flagNat (b : Bool) : Nat := if b then 1 else 0

/-- The status byte as R16 lays it out, with bit 4 as given. -/
def statusByte (f : Flags) (b : Bool) : Byte :=
  BitVec.ofNat 8 (128 * flagNat f.n + 64 * flagNat f.v + 32 + 16 * flagNat b + 8 * flagNat f.d + 4 * flagNat f.i +
    2 * flagNat f.z + flagNat f.c)

/-- Where the PPU stands, as dots since the start of scanline 0. -/
def Ppu.position (p : Ppu) : Nat := 341 * p.scanline + p.dot

/-- One row of the table, immediate mode (R139): its bytes, and that it always completes with this effect in 2 cycles. -/
def ImmRow (i : Instr) (code : List Byte) (imm : Byte) (effect : State → Byte → State) : Prop :=
  encode i = code ∧ ∀ s, exec i s = .next ((effect s imm).addCycles 2)

/-- One read-class row in a memory mode (R133, R135): its bytes, and that whenever its operand can be read it completes with
this effect of the operand, in its base cycles and, for `page`, one more on a page cross; when the operand read faults, it
stops with that fault (R62). -/
def ReadRow (i : Instr) (code : List Byte) (mode : MemMode) (base : Nat) (page : Bool)
    (effect : State → Byte → State) : Prop :=
  encode i = code ∧
  (∀ s m crossed s1, s.loadOperand mode = .ok (m, crossed, s1) →
    exec i s = .next ((effect s1 m).addCycles (base + if page && crossed then 1 else 0))) ∧
  ∀ s e, s.loadOperand mode = .error e → exec i s = .fault e

/-- One read-modify-write row (R180): its bytes, and that whenever its operand can be read it completes with one write of the
function's byte and the function's flags, in its base cycles; when the operand read faults, it stops with that fault and
writes nothing (R62). -/
def RmwRow (i : Instr) (code : List Byte) (mode : MemMode) (base : Nat) (f : Byte → Flags → Byte × Flags) : Prop :=
  encode i = code ∧
  (∀ s t s1 m s2, s.resolve mode = .ok (t, s1) → s1.busRead t.ea = .ok (m, s2) →
    exec i s = .next (((s2.busWrite t.ea (f m s.flags).1).setFlags (f m s.flags).2).addCycles base)) ∧
  ∀ s t s1 e, s.resolve mode = .ok (t, s1) → s1.busRead t.ea = .error e → exec i s = .fault e

/-- One accumulator-mode row (R138, R180): its byte, and that it always completes in 2 cycles. -/
def AccRow (i : Instr) (code : List Byte) (f : Byte → Flags → Byte × Flags) : Prop :=
  encode i = code ∧
  ∀ s, exec i s = .next { s with a := (f s.a s.flags).1, flags := (f s.a s.flags).2, cyc := s.cyc + 2 }

/-- One write-class row (R133): its bytes, and that whenever its target resolves it completes with one write of the register
there, in its base cycles. -/
def StoreRow (i : Instr) (code : List Byte) (mode : MemMode) (base : Nat) (reg : State → Byte) : Prop :=
  encode i = code ∧
  ∀ s t s1, s.resolve mode = .ok (t, s1) → exec i s = .next ((s1.busWrite t.ea (reg s)).addCycles base)

/-- One branch row (R200): its bytes, and that it always completes: not taken in 2 cycles; taken in 3, or 4 when the target's
page is not that of the next instruction, at which PC stands. -/
def BranchRow (build : Byte → Instr) (op : Byte) (flag : Flags → Bool) (expected : Bool) : Prop :=
  ∀ rel, encode (build rel) = [op, rel] ∧
    ∀ s, exec (build rel) s = .next
      (if flag s.flags = expected then
        { s with
          pc := s.pc + rel.signExtend 16
          cyc := s.cyc + if (s.pc + rel.signExtend 16).toNat / 256 = s.pc.toNat / 256 then 3 else 4 }
      else { s with cyc := s.cyc + 2 })

/-- One implied row that always completes with a next state given outright. -/
def ImpliedRow (i : Instr) (op : Byte) (after : State → State) : Prop :=
  encode i = [op] ∧ ∀ s, exec i s = .next (after s)

/-- N and Z from a result, the other flags as they were (R11). -/
def withNZ (f : Flags) (r : Byte) : Flags := { f with n := r.msb, z := decide (r = 0) }

/-- The eight rows of an accumulator operation: immediate, zero page, zero page,X, absolute, absolute,X, absolute,Y, (zp,X)
and (zp),Y, by their opcode bytes (R104, R106). -/
def EightRows (imm zp zpX : Byte → Instr) (abs absX absY : Word → Instr) (indX indY : Byte → Instr)
    (oImm oZp oZpX oAbs oAbsX oAbsY oIndX oIndY : Byte) (effect : State → Byte → State) : Prop :=
  (∀ b, ImmRow (imm b) [oImm, b] b effect) ∧
  (∀ b, ReadRow (zp b) [oZp, b] (.zp b) 3 false effect) ∧
  (∀ b, ReadRow (zpX b) [oZpX, b] (.zpX b) 4 false effect) ∧
  (∀ w, ReadRow (abs w) [oAbs, w.extractLsb' 0 8, w.extractLsb' 8 8] (.abs w) 4 false effect) ∧
  (∀ w, ReadRow (absX w) [oAbsX, w.extractLsb' 0 8, w.extractLsb' 8 8] (.absX w) 4 true effect) ∧
  (∀ w, ReadRow (absY w) [oAbsY, w.extractLsb' 0 8, w.extractLsb' 8 8] (.absY w) 4 true effect) ∧
  (∀ b, ReadRow (indX b) [oIndX, b] (.indX b) 6 false effect) ∧
  (∀ b, ReadRow (indY b) [oIndY, b] (.indY b) 5 true effect)

/-- The four memory rows of a read-modify-write operation: zero page, zero page,X, absolute and absolute,X. -/
def FourRmwRows (zp zpX : Byte → Instr) (abs absX : Word → Instr) (oZp oZpX oAbs oAbsX : Byte)
    (f : Byte → Flags → Byte × Flags) : Prop :=
  (∀ b, RmwRow (zp b) [oZp, b] (.zp b) 5 f) ∧
  (∀ b, RmwRow (zpX b) [oZpX, b] (.zpX b) 6 f) ∧
  (∀ w, RmwRow (abs w) [oAbs, w.extractLsb' 0 8, w.extractLsb' 8 8] (.abs w) 6 f) ∧
  (∀ w, RmwRow (absX w) [oAbsX, w.extractLsb' 0 8, w.extractLsb' 8 8] (.absX w) 7 f)

end Sys2Proof.Machine
end

