-- ==== Sys2Proof/Certificates/Slice0/Obligations.lean ====
section
/-! DEFINITION. The statements about the machine, each from the rules of the spec it names. -/

open Sys2Proof Sys2Proof.Machine

/-! ## Encoding -/

/-- Decoding the bytes of any well-formed instruction, whatever follows them, gives it back with exactly what follows
(R101, R102, R103). -/
def Obligations.DecodeInvertsEncode : Prop :=
  ∀ (i : Instr) (rest : List Byte), i.wf = true → decode (encode i ++ rest) = .ok (i, rest)

/-- Whatever decodes is a well-formed instruction, and the bytes consumed are exactly its encoding (R101, R106). -/
def Obligations.EncodeInvertsDecode : Prop :=
  ∀ (bytes rest : List Byte) (i : Instr), decode bytes = .ok (i, rest) → i.wf = true ∧ bytes = encode i ++ rest

/-- Bytes fail to decode only when there are none or they end inside the operand their opcode byte asks for; no opcode is
refused (R100, R102). -/
def Obligations.DecodeFailsOnlyWhenTruncated : Prop :=
  ∀ (bytes : List Byte) (e : DecodeError), decode bytes = .error e →
    (bytes = [] ∧ e = .empty) ∨
    ∃ op rest, bytes = op :: rest ∧ bytes.length < opcodeLength op ∧ e = .truncated op

/-- A byte decodes as unassigned exactly when R107 lists it, and then alone, with no operand byte (R102, R107). -/
def Obligations.UnassignedBytesOfTheTable : Prop :=
  ∀ (op : Byte) (rest : List Byte),
    (op ∈ ([0x02, 0x03, 0x04, 0x07, 0x0B, 0x0C, 0x0F, 0x12, 0x13, 0x14, 0x17, 0x1A, 0x1B, 0x1C, 0x1F, 0x22, 0x23, 0x27,
      0x2B, 0x2F, 0x32, 0x33, 0x34, 0x37, 0x3A, 0x3B, 0x3C, 0x3F, 0x42, 0x43, 0x44, 0x47, 0x4B, 0x4F, 0x52, 0x53, 0x54,
      0x57, 0x5A, 0x5B, 0x5C, 0x5F, 0x62, 0x63, 0x64, 0x67, 0x6B, 0x6F, 0x72, 0x73, 0x74, 0x77, 0x7A, 0x7B, 0x7C, 0x7F] ++
      [0x80, 0x82, 0x83, 0x87, 0x89, 0x8B, 0x8F, 0x92, 0x93, 0x97, 0x9B, 0x9C, 0x9E, 0x9F, 0xA3, 0xA7, 0xAB, 0xAF, 0xB2,
      0xB3, 0xB7, 0xBB, 0xBF, 0xC2, 0xC3, 0xC7, 0xCB, 0xCF, 0xD2, 0xD3, 0xD4, 0xD7, 0xDA, 0xDB, 0xDC, 0xDF, 0xE2, 0xE3,
      0xE7, 0xEB, 0xEF, 0xF2, 0xF3, 0xF4, 0xF7, 0xFA, 0xFB, 0xFC, 0xFF] : List Byte)) ↔
    decode (op :: rest) = .ok (.unassigned op, rest)

/-- A sanity statement: words written out from the opcode map and R103's fields decode to their instructions (R106). -/
def Obligations.OpcodeWordsDecode : Prop :=
  decode [0x69, 0x50] = .ok (.adcImm 0x50, []) ∧ decode [0xFD, 0x34, 0x12] = .ok (.sbcAbsX 0x1234, []) ∧
  decode [0xC1, 0x20] = .ok (.cmpIndX 0x20, []) ∧ decode [0x2C, 0x02, 0x20] = .ok (.bitAbs 0x2002, []) ∧
  decode [0x6A] = .ok (.rorAcc, []) ∧ decode [0xFE, 0xFF, 0x17] = .ok (.incAbsX 0x17FF, []) ∧
  decode [0xD0, 0xFB] = .ok (.bne 0xFB, []) ∧ decode [0x20, 0x00, 0x04] = .ok (.jsr 0x0400, []) ∧
  decode [0x6C, 0xFF, 0x10] = .ok (.jmpInd 0x10FF, []) ∧ decode [0xB6, 0x10] = .ok (.ldxZpY 0x10, []) ∧
  decode [0x91, 0x20] = .ok (.staIndY 0x20, []) ∧ decode [0x9A] = .ok (.txs, []) ∧
  decode [0x1A, 0xA9] = .ok (.unassigned 0x1A, [0xA9])

/-! ## The console step -/

/-- A step that meets no fault and no interrupt runs the instruction it fetches, then ticks the PPU for the cycles the
instruction added to cyc (R130, R326; the order of the loop and its interrupt tests are decisions D10 to D12 and D34). Each
byte is one bus read at PC, whatever region answers it, with PC one on after it; the bytes' instruction runs with PC after
the last of them (R15, R65, R72); a byte that fails stops the step with its fault (R62). Where the bytes are RAM, stub or PRG
bytes, fetching changes PC alone. A tick changes the PPU and latches the edge it reports, and nothing else (R303, R325; D10).
That all operand bytes are fetched before the meaning runs is DEDUCED (log 15), and so is that the cycles ticked are the
difference of cyc (log 21). -/
def Obligations.StepRunsDecodedInstruction : Prop :=
  ∀ s : State, s.faulted = none → s.nmiPending = false → (s.irqLine && !s.flags.i) = false →
    (∀ i s1, s.fetchInstr = .ok (i, s1) →
      step s = match exec i s1 with
        | .next t => .next (t.tick (t.cyc - s.cyc))
        | .fault r => .fault r
        | .refused r => .refused r) ∧
    (∀ r, s.fetchInstr = .error r → step s = .fault r) ∧
    (∀ r, s.busRead s.pc = .error r → s.fetchInstr = .error r) ∧
    (∀ op s1, s.busRead s.pc = .ok (op, s1) →
      match fetchedBytes (opcodeLength op) s with
      | .ok (bytes, t) => ∃ i, decode bytes = .ok (i, []) ∧ s.fetchInstr = .ok (i, t)
      | .error r => s.fetchInstr = .error r) ∧
    (∀ bytes i, decode bytes = .ok (i, []) →
      (∀ k b, bytes[k]? = some b → s.peek (s.pc + BitVec.ofNat 16 k) = some b) →
      s.fetchInstr = .ok (i, { s with pc := s.pc + BitVec.ofNat 16 bytes.length })) ∧
    ∀ n, s.tick n = { s with ppu := (s.ppu.tick n).1, nmiPending := s.nmiPending || (s.ppu.tick n).2 }

/-- At a service point: a faulted machine takes no step, its error stands and nothing of it changes (R24); else a pending NMI
is cleared and entered by 0xFFFA (R307); else an asserted IRQ_LINE with I clear is entered by 0xFFFE (R311); the entry's 7
cycles are ticked (R310, R326, decisions D10 to D12). -/
def Obligations.StepServesInterruptsInOrder : Prop :=
  ∀ s : State,
    (∀ addr, s.faulted = some (.mapperOutOfRange addr) → step s = .fault (.mapperOutOfRange addr s)) ∧
    (s.faulted = none → s.nmiPending = true →
      ∃ t, interruptEntry 0xFFFA { s with nmiPending := false } = .next t ∧ step s = .next (t.tick 7)) ∧
    (s.faulted = none → s.nmiPending = false → s.irqLine = true → s.flags.i = false →
      ∃ t, interruptEntry 0xFFFE s = .next t ∧ step s = .next (t.tick 7))

/-- NMI and IRQ entry always complete: PC high, PC low and the status with B = 0 are pushed, I is set, PC comes from the
vector, 7 cycles are counted, and nothing else changes (R305, R306, R308; decision D9). -/
def Obligations.InterruptEntryEffect : Prop :=
  ∀ (s : State) (vector : Word), vector = 0xFFFA ∨ vector = 0xFFFE →
    interruptEntry vector s = .next { s with
      ram := ((s.ram.write (0x100 + s.sp.toNat) (s.pc.extractLsb' 8 8)).write (0x100 + (s.sp - 1).toNat)
        (s.pc.extractLsb' 0 8)).write (0x100 + (s.sp - 2).toNat) (statusByte s.flags false)
      sp := s.sp - 3
      flags := { s.flags with i := true }
      pc := vectorWord s.cart vector
      cyc := s.cyc + 7 }

/-- Every step, from any state in which the byte stores are canonical and within bounds and the PPU counters are in range,
leaves them so (R19, R26, R27, R320). -/
def Obligations.StepKeepsInvariant : Prop := ∀ s t : State, s.Inv → step s = .next t → t.Inv

/-- The invariant holds right after reset. The byte stores' contents there are the model's choice (log 2, 3, 4). -/
def Obligations.ResetMeetsInvariant : Prop := State.reset.Inv

/-- A system reset always completes: SP loses 3 with no memory written, I is set, PC is the word at 0xFFFC, cyc and
nmi_pending are cleared (R361); in the PPU ctrl, mask, w, read_buf and odd_frame are cleared (R362); nothing else changes. -/
def Obligations.SystemResetEffect : Prop :=
  ∀ s : State, systemReset s = .next { s with
    sp := s.sp - 3
    flags := { s.flags with i := true }
    pc := vectorWord s.cart 0xFFFC
    cyc := 0
    nmiPending := false
    ppu := { s.ppu with ctrl := 0, mask := 0, w := false, readBuf := 0, oddFrame := false } }

/-- Power-on with a cartridge always gives the machine after one reset: PC the reset vector, I set, cyc 0, SP its draw less 3,
in the PPU the five fields that reset clears; nmi_pending, the anomaly log and `faulted` clear; every other field, A, X, Y, N, V,
D, Z, C, RAM and the rest of the PPU, its power-on draw (R361, R362, R364, decisions D13, D14). That IRQ_LINE is 0 and the draw
index starts at 0 is the model's choice (log 8, 12), and `State.reset` is power-on with every draw 0 and the cartridge of log 4:
the model's choice too (log 1 to 4). -/
def Obligations.PowerOnEndsInReset : Prop :=
  (∀ (d : PowerOn) (c : Cartridge), powerOn d c = .next {
    a := d.a
    x := d.x
    y := d.y
    sp := d.sp - 3
    pc := vectorWord c 0xFFFC
    flags := { d.flags with i := true }
    ram := d.ram
    cyc := 0
    nmiPending := false
    anomalies := []
    faulted := none
    irqLine := false
    cart := c
    ppu := { d.ppu with ctrl := 0, mask := 0, w := false, readBuf := 0, oddFrame := false }
    draws := 0 }) ∧
  (∀ d : PowerOn, d.a = 0 → d.x = 0 → d.y = 0 → d.sp = 0 →
    d.flags = { n := false, v := false, d := false, i := false, z := false, c := false } → d.ram = [] →
    d.ppu = Ppu.reset → powerOn d Cartridge.blank = .next State.reset)

/-- A file loads exactly when it has the 16-byte header with its magic, the length the header gives, mapper 0 and one or two
PRG units (R365, R366); the cartridge then has those sizes, and its PRG and CHR bytes are the file's after the header and the
trainer. The mapper formula and the accepted sizes are decision D25. -/
def Obligations.LoaderContract : Prop :=
  ∀ file : List Byte,
    let h (k : Nat) : Byte := file.getD k 0
    let start := 16 + if (h 6).getLsbD 2 then 512 else 0
    let prgSize := 16384 * (h 4).toNat
    let chrSize := 8192 * (h 5).toNat
    let accepted := 16 ≤ file.length ∧ [h 0, h 1, h 2, h 3] = [0x4E, 0x45, 0x53, 0x1A] ∧
      start + prgSize + chrSize ≤ file.length ∧ (h 7 &&& 0xF0#8) ||| (h 6 >>> 4) = 0 ∧ (h 4 = 1 ∨ h 4 = 2)
    ((∃ c, loadCartridge file = .ok c) ↔ accepted) ∧
    ∀ c, loadCartridge file = .ok c →
      c.prgLength = prgSize ∧ c.chrUnits = (h 5).toNat ∧
      (∀ k, k < prgSize → c.prg.read k = file.getD (start + k) 0) ∧
      (∀ k, k < chrSize → c.chr.read k = file.getD (start + prgSize + k) 0)

/-- No step that answers a next state changes the cartridge: cartridge writes change no byte (R26, R56, R60). Nor does it change
the level of IRQ_LINE, which the model holds as a level no step drives (R304, D11; log 12, DESIGN CHOICE), the race window
(D19; log 10, DESIGN CHOICE), secondary OAM (log 19, DEDUCED), or `faulted`: a step that sets it answers a fault, which carries
the faulted machine (R24, R62; log 14, DEDUCED). -/
def Obligations.StepKeepsCartridgeAndInputs : Prop :=
  ∀ s t : State, step s = .next t →
    t.cart = s.cart ∧ t.irqLine = s.irqLine ∧ t.ppu.raceWindow = s.ppu.raceWindow ∧ t.ppu.oam2 = s.ppu.oam2 ∧
    t.faulted = s.faulted

/-- The anomaly log is never cleared: a step appends at most one entry, and a reset none (R270, R271, decision D27). -/
def Obligations.AnomalyLogOnlyGrows : Prop :=
  (∀ s t : State, step s = .next t →
    t.anomalies = s.anomalies ∨ ∃ pc op, t.anomalies = s.anomalies ++ [(pc, op)] ∧ op ∈ unassignedOpcodes) ∧
  (∀ s t : State, systemReset s = .next t → t.anomalies = s.anomalies)

/-- What an instruction adds to cyc: 1 for an unassigned byte; from 2 to 7 for every assigned instruction (R132, R376,
conflict C1). -/
def Obligations.CyclesOfInstructions : Prop :=
  ∀ (i : Instr) (s t : State), exec i s = .next t →
    (i.operation = .unassigned → t.cyc = s.cyc + 1) ∧
    (i.operation ≠ .unassigned → s.cyc + 2 ≤ t.cyc ∧ t.cyc ≤ s.cyc + 7)

/-- A machine that is not faulted and whose cartridge has CHR takes a step from every state, and is as live after it: no
instruction, interrupt or fetch stops it (R62, R300, R326). -/
def Obligations.StepCompletesWithChr : Prop :=
  ∀ s : State, s.Live → ∃ t, step s = .next t ∧ t.Live

/-- The only way a step of a machine that is not faulted stops: it serves no interrupt, the cartridge has no CHR, and one of its
bus reads, a fetch, the operand read or a pointer byte of JMP indirect, is of PPUDATA with v below 0x2000 (R61, R62, R80,
decisions D26, D28). The fault carries the faulted machine: `faulted` set with v's address, every register but PC, every flag,
all memory and cyc as before the step; of that machine a further step answers the same fault (R24). Which address the fault
names is the model's choice (log 16); that what was done before the failing read stays done is DEDUCED (log 14). -/
def Obligations.FaultsOnlyWithoutChr : Prop :=
  ∀ s : State, s.faulted = none →
    (∀ r, step s ≠ .refused r) ∧
    ∀ r, step s = .fault r →
      s.nmiPending = false ∧ (s.irqLine && !s.flags.i) = false ∧ s.cart.chrUnits = 0 ∧
      (∃ (a : Word) (t : State), r = .mapperOutOfRange a t ∧ a.toNat = t.ppu.v.toNat % 0x4000 ∧ a.toNat < 0x2000 ∧
        t = { s with pc := t.pc, ppu := t.ppu, draws := t.draws, faulted := some (.mapperOutOfRange a) } ∧
        step t = .fault r) ∧
      ((s.fetchInstr = .error r ∧ ∃ k, k < 3 ∧ isPpuData (s.pc + BitVec.ofNat 16 k)) ∨
        ∃ i s1, s.fetchInstr = .ok (i, s1) ∧ exec i s1 = .fault r ∧
          ((∃ mode target s2, i.readMode = some mode ∧ s1.resolve mode = .ok (target, s2) ∧ isPpuData target.ea) ∨
            ∃ ptr, i = .jmpInd ptr ∧ (isPpuData ptr ∨ isPpuData ((ptr &&& 0xFF00) ||| ((ptr + 1) &&& 0x00FF)))))

/-! ## What instructions leave unchanged -/

/-- A, X and Y are written only by the instructions R13 names; every other instruction leaves them. -/
def Obligations.WritersOfRegisters : Prop :=
  ∀ (i : Instr) (s t : State), exec i s = .next t →
    (i.operation ∉ [.adc, .sbc, .and, .ora, .eor, .lda, .pla, .txa, .tya] →
      i ∉ [Instr.aslAcc, Instr.lsrAcc, Instr.rolAcc, Instr.rorAcc] → t.a = s.a) ∧
    (i.operation ∉ [.ldx, .tax, .tsx, .inx, .dex] → t.x = s.x) ∧
    (i.operation ∉ [.ldy, .tay, .iny, .dey] → t.y = s.y)

/-- SP moves only by a push (down one for each byte), a pull (up one for each byte) and TXS, modulo 256 (R14, R210). -/
def Obligations.WritersOfStackPointer : Prop :=
  ∀ (i : Instr) (s t : State), exec i s = .next t →
    (i.operation ∉ [.pha, .php, .pla, .plp, .jsr, .rts, .brk, .rti, .txs] → t.sp = s.sp) ∧
    (i.operation ∈ [.pha, .php] → t.sp = s.sp - 1) ∧ (i.operation ∈ [.pla, .plp] → t.sp = s.sp + 1) ∧
    (i.operation = .jsr → t.sp = s.sp - 2) ∧ (i.operation = .rts → t.sp = s.sp + 2) ∧
    (i.operation = .brk → t.sp = s.sp - 3) ∧ (i.operation = .rti → t.sp = s.sp + 3)

/-- Each flag is written only by the instructions that R18's table names for it; every other instruction leaves it. -/
def Obligations.WritersOfFlags : Prop :=
  ∀ (i : Instr) (s t : State), exec i s = .next t →
    (i.operation ∉ [.adc, .sbc, .and, .ora, .eor, .cmp, .cpx, .cpy, .bit, .inc, .dec, .inx, .iny, .dex, .dey, .asl, .lsr,
      .rol, .ror, .lda, .ldx, .ldy, .tax, .tay, .txa, .tya, .tsx, .pla, .plp, .rti] →
      t.flags.n = s.flags.n ∧ t.flags.z = s.flags.z) ∧
    (i.operation ∉ [.adc, .sbc, .bit, .clv, .plp, .rti] → t.flags.v = s.flags.v) ∧
    (i.operation ∉ [.sed, .cld, .plp, .rti] → t.flags.d = s.flags.d) ∧
    (i.operation ∉ [.sei, .cli, .brk, .plp, .rti] → t.flags.i = s.flags.i) ∧
    (i.operation ∉ [.adc, .sbc, .cmp, .cpx, .cpy, .asl, .lsr, .rol, .ror, .clc, .sec, .plp, .rti] →
      t.flags.c = s.flags.c)

/-- Every byte of memory that an instruction does not store to reads as before: for every instruction, the bytes stored to are
those of `storedAddrs` (the resolved target of the write and read-modify-write classes, the stack bytes PHA, PHP, JSR and BRK
push, none for the rest), and a store at 0x2000 or above changes no byte of RAM or PRG (R51, R56, R133, R210). -/
def Obligations.StoresOnlyWhereComputed : Prop :=
  ∀ (i : Instr) (s t : State), exec i s = .next t →
    ∀ addr : Word, (∀ a ∈ storedAddrs i s, ¬ sameRamByte a addr) → t.peek addr = s.peek addr

/-- An instruction that completes leaves `faulted`, the cartridge (R26, R56), the NMI latch (R22, R303, decision D10) and the
level of IRQ_LINE (R304, D11; log 12, DESIGN CHOICE), and only an unassigned byte touches the anomaly log (R23, R330). One that
fails sets `faulted` in the machine its fault carries (R24, R62), which differs otherwise only in the PPU and the draw index, by
the reads made before the failing one (log 14, DEDUCED). -/
def Obligations.ExecKeepsConsoleState : Prop :=
  (∀ (i : Instr) (s t : State), exec i s = .next t →
    t.faulted = s.faulted ∧ t.nmiPending = s.nmiPending ∧ t.irqLine = s.irqLine ∧ t.cart = s.cart ∧
    (i.operation ≠ .unassigned → t.anomalies = s.anomalies)) ∧
  ∀ (i : Instr) (s : State) (r : Fault), exec i s = .fault r → ∃ (a : Word) (t : State), r = .mapperOutOfRange a t ∧
    t = { s with ppu := t.ppu, draws := t.draws, faulted := some (.mapperOutOfRange a) }

/-- The PPU is reached only through its register window: an instruction whose operand read and store addresses, and for JMP
indirect whose pointer bytes, all lie outside 0x2000-0x3FFF leaves every field of the PPU unchanged (R20, R52, R325). That an
instruction makes no other access, no dummy read on a page cross and no second write, is R134's decision D4. -/
def Obligations.PpuReachedOnlyThroughItsWindow : Prop :=
  ∀ (i : Instr) (s t : State), exec i s = .next t →
    (∀ mode, i.readMode = some mode ∨ i.writeMode = some mode →
      ∀ target s1, s.resolve mode = .ok (target, s1) → ¬ inPpuWindow target.ea) →
    (∀ ptr, i = .jmpInd ptr →
      ¬ inPpuWindow ptr ∧ ¬ inPpuWindow ((ptr &&& 0xFF00) ||| ((ptr + 1) &&& 0x00FF))) →
    t.ppu = s.ppu

/-! ## The bus -/

/-- Internal RAM: an address below 0x2000 reads, and stores to, the one byte at its residue modulo 0x0800, with no side
effect, and every other byte stays; a write from 0x2000 up changes no byte of RAM or of the cartridge (R51). -/
def Obligations.RamIsMirrored : Prop :=
  (∀ (s : State) (addr : Word) (v : Byte), addr.toNat < 0x2000 →
    s.busRead addr = .ok (s.ram.read (addr.toNat % 0x0800), s) ∧
    ∃ ram, s.busWrite addr v = { s with ram := ram } ∧ ram.read (addr.toNat % 0x0800) = v ∧
      (∀ k, k ≠ addr.toNat % 0x0800 → ram.read k = s.ram.read k) ∧
      ∀ b : Word, b.toNat < 0x2000 → b.toNat % 0x0800 = addr.toNat % 0x0800 →
        (s.busWrite addr v).busRead b = .ok (v, s.busWrite addr v)) ∧
  ∀ (s : State) (addr : Word) (v : Byte), 0x2000 ≤ addr.toNat →
    (s.busWrite addr v).ram = s.ram ∧ (s.busWrite addr v).cart = s.cart

/-- Stubbed I/O reads 0x00 and ignores writes at 0x4000-0x4017 (R53); a write at 0x4020 or above changes nothing, since the
fixed mapper's cpuWrite is a no-op (R56, R60). -/
def Obligations.StubAndCartridgeAccess : Prop :=
  ∀ (s : State) (addr : Word) (v : Byte),
    (0x4000 ≤ addr.toNat ∧ addr.toNat ≤ 0x4017 → s.busRead addr = .ok (0, s) ∧ s.busWrite addr v = s) ∧
    (0x4020 ≤ addr.toNat → s.busWrite addr v = s)

/-- PRG reads through the fixed mapper: one bank mirrored, two straight through, with no side effect and no fault (R55, R59). -/
def Obligations.PrgMapping : Prop :=
  ∀ (s : State) (addr : Word), 0x8000 ≤ addr.toNat →
    (s.cart.prgBanks = .one → s.busRead addr = .ok (s.cart.prg.read ((addr.toNat - 0x8000) % 0x4000), s)) ∧
    (s.cart.prgBanks = .two → s.busRead addr = .ok (s.cart.prg.read (addr.toNat - 0x8000), s))

/-- The reads the spec leaves open complete with a free byte and change nothing but the draw index: 0x4020-0x7FFF (R57), PPU
registers 0, 1, 3, 5 and 6 (R78); OAMDATA reads oam[oam_addr] and changes nothing (R77); 0x4018-0x401F is a stub (R54). The
free bytes are the model's form of open parameters (log 6, 7, 8; decisions D16 to D18). -/
def Obligations.OpenReads : Prop :=
  ∀ (s : State) (addr : Word),
    (0x4020 ≤ addr.toNat → addr.toNat < 0x8000 →
      s.busRead addr = .ok (Config.cartLowRead s.draws, { s with draws := s.draws + 1 })) ∧
    (inPpuWindow addr → addr.toNat % 8 ∈ [0, 1, 3, 5, 6] →
      s.busRead addr = .ok (Config.ppuOpenBus s.draws, { s with draws := s.draws + 1 })) ∧
    (inPpuWindow addr → addr.toNat % 8 = 4 → s.busRead addr = .ok (s.ppu.oam.read s.ppu.oamAddr.toNat, s)) ∧
    (∀ v, 0x4018 ≤ addr.toNat → addr.toNat < 0x4020 → s.busRead addr = .ok (0, s) ∧ s.busWrite addr v = s)

/-! ## The PPU register window -/

/-- Warm-up: while cyc ≤ 29658 a write to PPUCTRL, PPUMASK, PPUSCROLL or PPUADDR, at any mirror, changes nothing, the toggle
included; OAMADDR, OAMDATA and PPUDATA are not locked out: they take the write as at any other cyc (R75). -/
def Obligations.WarmUpLockout : Prop :=
  ∀ (s : State) (addr : Word) (d : Byte), inPpuWindow addr → s.cyc ≤ 29658 →
    (addr.toNat % 8 ∈ [0, 1, 5, 6] → s.busWrite addr d = s) ∧
    (addr.toNat % 8 ∈ [3, 4, 7] → ∀ later, (s.busWrite addr d).ppu = (State.busWrite { s with cyc := later } addr d).ppu)

/-- A PPUSTATUS read always completes: status[7:5] over five free bits, bit 7 forced to 0 in the race window; vblank and the
write-toggle clear; suppress set in the window and kept outside it (R76; decisions D18, D19, log 7, 10). -/
def Obligations.PpuStatusRead : Prop :=
  ∀ (s : State) (addr : Word), inPpuWindow addr → addr.toNat % 8 = 2 →
    ∃ value t, s.busRead addr = .ok (value, t) ∧
      value.extractLsb' 5 2 = s.ppu.status.extractLsb' 5 2 ∧
      value.extractLsb' 0 5 = (Config.ppuOpenBus s.draws).extractLsb' 0 5 ∧
      value.getLsbD 7 = (s.ppu.status.getLsbD 7 && !s.ppu.raceWindow.contains (s.ppu.scanline, s.ppu.dot)) ∧
      t = { s with
        draws := s.draws + 1
        ppu := { s.ppu with
          status := s.ppu.status &&& 0x7F
          w := false
          suppress := s.ppu.suppress || s.ppu.raceWindow.contains (s.ppu.scanline, s.ppu.dot) } }

/-- A PPUDATA read: below 0x3F00 one read behind through read_buf, at the palette direct with the buffer refilled from 0x1000
below; v advances by 1 or 32 modulo 0x8000 (R79, R80). Below 0x2000 the byte is CHR's, and with none there the read faults and
sets `faulted`, nothing else changed (R61, R62; that out of range is a fault is decision D28, that a CHR of 0 KiB is out of range
D26). That the fault names the PPU address, in 16 bits, is the model's choice (log 16). From 0x2000 up the byte is PPU_MEMORY's,
a free value (D24, log 9). -/
def Obligations.PpuDataRead : Prop :=
  ∀ (s : State) (addr : Word), inPpuWindow addr → addr.toNat % 8 = 7 →
    let a := s.ppu.v.setWidth 14
    let next : BitVec 15 := BitVec.ofNat 15 (s.ppu.v.toNat + if s.ppu.ctrl.getLsbD 2 then 32 else 1)
    let memory (b : BitVec 14) := Config.ppuMemoryRead s.ppu.vram s.ppu.memStores b
    (a.toNat < 0x2000 → a.toNat < 8192 * s.cart.chrUnits → s.busRead addr =
      .ok (s.ppu.readBuf, { s with ppu := { s.ppu with readBuf := s.cart.chr.read a.toNat, v := next } })) ∧
    (a.toNat < 0x2000 → s.cart.chrUnits = 0 →
      s.busRead addr = .error (.mapperOutOfRange (BitVec.ofNat 16 a.toNat)
        { s with faulted := some (.mapperOutOfRange (BitVec.ofNat 16 a.toNat)) })) ∧
    (0x2000 ≤ a.toNat → a.toNat < 0x3F00 → s.busRead addr =
      .ok (s.ppu.readBuf, { s with ppu := { s.ppu with readBuf := memory a, v := next } })) ∧
    (0x3F00 ≤ a.toNat → s.busRead addr =
      .ok (memory a, { s with ppu := { s.ppu with readBuf := memory (a - 0x1000), v := next } }))

/-- After the warm-up a PPUCTRL write stores ctrl and copies its bits 1:0 into t[11:10], and a PPUMASK write stores mask
(R81, R82). -/
def Obligations.PpuCtrlMaskWrites : Prop :=
  ∀ (s : State) (addr : Word) (d : Byte), inPpuWindow addr → 29658 < s.cyc →
    (addr.toNat % 8 = 0 → ∃ t : BitVec 15, s.busWrite addr d = { s with ppu := { s.ppu with ctrl := d, t := t } } ∧
      ∀ k, k < 15 → t.getLsbD k =
        if k = 10 then d.getLsbD 0 else if k = 11 then d.getLsbD 1 else s.ppu.t.getLsbD k) ∧
    (addr.toNat % 8 = 1 → s.busWrite addr d = { s with ppu := { s.ppu with mask := d } })

/-- OAMADDR writes always take effect (R83); an OAMDATA write is ignored on scanlines below 240 and otherwise stores at
oam_addr, which then advances modulo 256 (R84). -/
def Obligations.PpuOamWrites : Prop :=
  ∀ (s : State) (addr : Word) (d : Byte), inPpuWindow addr →
    (addr.toNat % 8 = 3 → s.busWrite addr d = { s with ppu := { s.ppu with oamAddr := d } }) ∧
    (addr.toNat % 8 = 4 → s.ppu.scanline < 240 → s.busWrite addr d = s) ∧
    (addr.toNat % 8 = 4 → 240 ≤ s.ppu.scanline → ∃ oam, s.busWrite addr d =
      { s with ppu := { s.ppu with oam := oam, oamAddr := s.ppu.oamAddr + 1 } } ∧
      oam.read s.ppu.oamAddr.toNat = d ∧ ∀ k, k ≠ s.ppu.oamAddr.toNat → oam.read k = s.ppu.oam.read k)

/-- After the warm-up, PPUSCROLL and PPUADDR writes: the first byte and the second, told apart by the one toggle w, place their
bits in t as R85 and R86 say; only the second PPUADDR byte commits v. -/
def Obligations.PpuScrollAddrWrites : Prop :=
  ∀ (s : State) (addr : Word) (d : Byte), inPpuWindow addr → 29658 < s.cyc →
    (addr.toNat % 8 = 5 → s.ppu.w = false → ∃ t : BitVec 15, s.busWrite addr d =
      { s with ppu := { s.ppu with t := t, fineX := BitVec.ofNat 3 d.toNat, w := true } } ∧
      ∀ k, k < 15 → t.getLsbD k = if k < 5 then d.getLsbD (k + 3) else s.ppu.t.getLsbD k) ∧
    (addr.toNat % 8 = 5 → s.ppu.w = true → ∃ t : BitVec 15, s.busWrite addr d =
      { s with ppu := { s.ppu with t := t, w := false } } ∧
      ∀ k, k < 15 → t.getLsbD k = if 12 ≤ k then d.getLsbD (k - 12)
        else if 5 ≤ k ∧ k ≤ 9 then d.getLsbD (k - 2) else s.ppu.t.getLsbD k) ∧
    (addr.toNat % 8 = 6 → s.ppu.w = false → ∃ t : BitVec 15, s.busWrite addr d =
      { s with ppu := { s.ppu with t := t, w := true } } ∧
      ∀ k, k < 15 → t.getLsbD k = if k = 14 then false
        else if 8 ≤ k then d.getLsbD (k - 8) else s.ppu.t.getLsbD k) ∧
    (addr.toNat % 8 = 6 → s.ppu.w = true → ∃ t : BitVec 15, s.busWrite addr d =
      { s with ppu := { s.ppu with t := t, v := t, w := false } } ∧
      ∀ k, k < 15 → t.getLsbD k = if k < 8 then d.getLsbD k else s.ppu.t.getLsbD k)

/-- A PPUDATA write, at any cyc, advances v by 1 or 32 modulo 0x8000; below PPU address 0x2000 it stores nothing (CHR is ROM),
from there up PPU_MEMORY receives the store and only VRAM and PPU_MEMORY change (R79, R87, log 9, 13). A PPUSTATUS write
changes nothing (R88). -/
def Obligations.PpuDataWrite : Prop :=
  ∀ (s : State) (addr : Word) (d : Byte), inPpuWindow addr →
    let a := s.ppu.v.setWidth 14
    let next : BitVec 15 := BitVec.ofNat 15 (s.ppu.v.toNat + if s.ppu.ctrl.getLsbD 2 then 32 else 1)
    (addr.toNat % 8 = 7 → a.toNat < 0x2000 → s.busWrite addr d = { s with ppu := { s.ppu with v := next } }) ∧
    (addr.toNat % 8 = 7 → 0x2000 ≤ a.toNat → ∃ vram, s.busWrite addr d =
      { s with ppu := { s.ppu with v := next, vram := vram, memStores := (a, d) :: s.ppu.memStores } } ∧
      ∀ k, (∀ e ∈ Config.ppuMemoryStore s.ppu.vram s.ppu.memStores a d, e.1.toNat ≠ k) →
        vram.read k = s.ppu.vram.read k) ∧
    (addr.toNat % 8 = 2 → s.busWrite addr d = s)

/-! ## PPU timing and the NMI edge -/

/-- One dot of the counters, in range: one on; from dot 340 to the next line; from line 261 to line 0 with parity toggled; and
the odd frame with rendering enabled goes from (261, 339) straight to (0, 0) (R320, R323, decision D21). -/
def Obligations.DotAdvance : Prop :=
  ∀ p : Ppu, p.scanline ≤ 261 → p.dot ≤ 340 →
    let q := p.stepDot
    let skip := p.scanline = 261 ∧ p.dot = 339 ∧ p.oddFrame = true ∧ (p.mask.getLsbD 3 = true ∨ p.mask.getLsbD 4 = true)
    (skip → q.scanline = 0 ∧ q.dot = 0 ∧ q.oddFrame = false) ∧
    (¬ skip → p.dot < 340 → q.scanline = p.scanline ∧ q.dot = p.dot + 1 ∧ q.oddFrame = p.oddFrame) ∧
    (p.dot = 340 → p.scanline < 261 → q.scanline = p.scanline + 1 ∧ q.dot = 0 ∧ q.oddFrame = p.oddFrame) ∧
    (p.dot = 340 → p.scanline = 261 → q.scanline = 0 ∧ q.dot = 0 ∧ q.oddFrame = !p.oddFrame)

/-- The position events: arriving at (241, 1) sets vblank, or clears suppress and sets nothing (R321); arriving at (261, 1)
clears status[7:5] and nothing else (R322; decision D20); no other dot changes status or suppress. Of status[6:5] that holds
because the model lets the open SPRITE_STATUS (R74, D23) write them at the start of a tick and in no dot: its choice (log 11). -/
def Obligations.VblankFlagEvents : Prop :=
  ∀ p : Ppu, p.scanline ≤ 261 → p.dot ≤ 340 →
    (p.scanline = 241 → p.dot = 0 → p.suppress = false →
      p.stepDot = { p with dot := 1, status := p.status ||| 0x80 }) ∧
    (p.scanline = 241 → p.dot = 0 → p.suppress = true → p.stepDot = { p with dot := 1, suppress := false }) ∧
    (p.scanline = 261 → p.dot = 0 → p.stepDot = { p with dot := 1, status := p.status &&& 0x1F }) ∧
    (¬ (p.dot = 0 ∧ (p.scanline = 241 ∨ p.scanline = 261)) →
      p.stepDot.status = p.status ∧ p.stepDot.suppress = p.suppress)

/-- A frame from (0, 0) is 89342 dots, and 89341 on an odd frame with rendering enabled, after which the PPU stands at (0, 0)
with parity toggled (R317). -/
def Obligations.FrameLength : Prop :=
  ∀ p : Ppu, p.scanline = 0 → p.dot = 0 →
    let rendering := p.mask.getLsbD 3 || p.mask.getLsbD 4
    let n := if p.oddFrame && rendering then 89341 else 89342
    let q := (Ppu.runDots n p false).1
    q.scanline = 0 ∧ q.dot = 0 ∧ q.oddFrame = !p.oddFrame

/-- The tick during which the PPU passes (241, 1), with vblank clear before it: not suppressed it sets vblank, and reports an
edge exactly when nmi_enable is set; suppressed it sets nothing, reports nothing and clears suppress. Position 82182 is
(241, 1) and 89002 is (261, 1) (R318, R321, R324, decision D22, conflict C10). The tick starts before (241, 1) in the frame: one
that starts on line 261 and wraps first is not spoken of here. -/
def Obligations.NmiEdgeAtVblank : Prop :=
  ∀ (p : Ppu) (n : Nat), p.scanline ≤ 261 → p.dot ≤ 340 → p.status.getLsbD 7 = false →
    p.position < 82182 → 82182 ≤ p.position + 3 * n → p.position + 3 * n < 89002 →
    (p.tick n).1.position = p.position + 3 * n ∧ (p.tick n).1.suppress = false ∧
    (p.suppress = false → (p.tick n).2 = p.ctrl.getLsbD 7 ∧ (p.tick n).1.status.getLsbD 7 = true) ∧
    (p.suppress = true → (p.tick n).2 = false ∧ (p.tick n).1.status.getLsbD 7 = false)

/-- An edge fires once: while vblank lasts and the level was already seen high, later ticks report none and vblank stays; a
level raised since the last tick is reported by the next; with nmi_enable clear none is ever reported; and every tick leaves
nmi_prev equal to the level (R324, decision D22). The tick whole: the renderer's entry for status[6:5], if the schedule has
one, is taken and dropped, and one EvalNMI runs; each cycle runs Dot and EvalNMI three times, and the tick reports whether
any EvalNMI found an edge (R318). Its frame: ctrl, mask, oam, secondary OAM, oam_addr, vram, read_buf, w, v, t, fine_x, the
race window and PPU_MEMORY's stores stay; a dot changes only status, the counters, suppress and parity. That SPRITE_STATUS
(R74, D23) is a schedule of one entry a tick, taken at its start, is the model's choice (log 11). -/
def Obligations.NmiEdgeFiresOnce : Prop :=
  ∀ (p : Ppu) (n : Nat),
    (p.scanline ≤ 261 → p.dot ≤ 340 → p.ctrl.getLsbD 7 = true → p.status.getLsbD 7 = true → p.nmiPrev = true →
      82182 ≤ p.position → p.position + 3 * n < 89002 →
      (p.tick n).2 = false ∧ (p.tick n).1.status.getLsbD 7 = true) ∧
    (p.ctrl.getLsbD 7 = true → p.status.getLsbD 7 = true → p.nmiPrev = false → (p.tick n).2 = true) ∧
    (p.ctrl.getLsbD 7 = false → (p.tick n).2 = false) ∧
    (p.tick n).1.nmiPrev = ((p.tick n).1.ctrl.getLsbD 7 && (p.tick n).1.status.getLsbD 7) ∧
    let eval (r : Ppu × Bool) : Ppu × Bool :=
      let level := r.1.ctrl.getLsbD 7 && r.1.status.getLsbD 7
      ({ r.1 with nmiPrev := level }, r.2 || (level && !r.1.nmiPrev))
    let dot (r : Ppu × Bool) : Ppu × Bool := eval (r.1.stepDot, r.2)
    (p.spriteStatus = [] → p.tick 0 = eval (p, false)) ∧
    (∀ b rest, p.spriteStatus = b :: rest → p.tick 0 =
      eval ({ p with status := (p.status &&& 0x9F) ||| (b.setWidth 8 <<< 5), spriteStatus := rest }, false)) ∧
    p.tick (n + 1) = dot (dot (dot (p.tick n))) ∧
    (p.tick n).1 = { p with
      status := (p.tick n).1.status
      spriteStatus := p.spriteStatus.tail
      scanline := (p.tick n).1.scanline
      dot := (p.tick n).1.dot
      nmiPrev := (p.tick n).1.nmiPrev
      suppress := (p.tick n).1.suppress
      oddFrame := (p.tick n).1.oddFrame } ∧
    p.stepDot = { p with
      status := p.stepDot.status
      scanline := p.stepDot.scanline
      dot := p.stepDot.dot
      suppress := p.stepDot.suppress
      oddFrame := p.stepDot.oddFrame }

/-! ## The stack -/

/-- Push stores at 0x0100 + SP then decrements, pull increments then loads, both modulo 256 within page 1, so a pull after a push
gives the byte pushed and restores SP; a word goes high byte first and comes back low byte first (R210). -/
def Obligations.StackPushThenPull : Prop :=
  ∀ (s : State) (b : Byte) (w : Word),
    s.push b = { s with ram := s.ram.write (0x100 + s.sp.toNat) b, sp := s.sp - 1 } ∧
    s.pull = .ok (s.ram.read (0x100 + (s.sp + 1).toNat), { s with sp := s.sp + 1 }) ∧
    (s.push b).pull = .ok (b, { s with ram := s.ram.write (0x100 + s.sp.toNat) b }) ∧
    s.pushWord w = { s with
      ram := (s.ram.write (0x100 + s.sp.toNat) (w.extractLsb' 8 8)).write (0x100 + (s.sp - 1).toNat) (w.extractLsb' 0 8)
      sp := s.sp - 2 } ∧
    s.pullWord = .ok (s.ram.read (0x100 + (s.sp + 2).toNat) ++ s.ram.read (0x100 + (s.sp + 1).toNat),
      { s with sp := s.sp + 2 })

/-! ## Instructions: results and completion -/

/-- What each addressing mode resolves to: the zero-page sums and pointers wrap in page 0, the indexed addresses wrap at
0xFFFF and cross when the page changes; the operand is then one bus read at the address (R140 to R142, R144 to R146). The
page-0 wrap of a pointer's second byte is decision D6. -/
def Obligations.AddressingModes : Prop :=
  ∀ (s : State) (b : Byte) (w : Word),
    let at16 (n : Nat) : Word := BitVec.ofNat 16 n
    let pointer (p : Nat) : Nat := 256 * (s.ram.read ((p + 1) % 256)).toNat + (s.ram.read (p % 256)).toNat
    let crosses (base index : Nat) : Bool := decide (base / 256 ≠ ((base + index) % 65536) / 256)
    s.resolve (.zp b) = .ok (⟨at16 b.toNat, false⟩, s) ∧
    s.resolve (.zpX b) = .ok (⟨at16 ((b.toNat + s.x.toNat) % 256), false⟩, s) ∧
    s.resolve (.zpY b) = .ok (⟨at16 ((b.toNat + s.y.toNat) % 256), false⟩, s) ∧
    s.resolve (.abs w) = .ok (⟨w, false⟩, s) ∧
    s.resolve (.absX w) = .ok (⟨at16 (w.toNat + s.x.toNat), crosses w.toNat s.x.toNat⟩, s) ∧
    s.resolve (.absY w) = .ok (⟨at16 (w.toNat + s.y.toNat), crosses w.toNat s.y.toNat⟩, s) ∧
    s.resolve (.indX b) = .ok (⟨at16 (pointer (b.toNat + s.x.toNat)), false⟩, s) ∧
    s.resolve (.indY b) =
      .ok (⟨at16 (pointer b.toNat + s.y.toNat), crosses (pointer b.toNat) s.y.toNat⟩, s) ∧
    ∀ mode t s1 m s2, s.resolve mode = .ok (t, s1) → s1.busRead t.ea = .ok (m, s2) →
      s.loadOperand mode = .ok (m, t.crossed, s2)

/-- ADC, all eight rows, completes with A + M + C: C the carry out of 8 bits, V when A and M have one sign and the result
another, N and Z from the result, D ignored (R161; decimal mode absent by D1, opcode bytes and cycles by G2). When the
operand read faults ADC stops with that fault and nothing after the read is done: a choice, of R62's decision D28 and log 14
(DEDUCED). -/
def Obligations.AdcResult : Prop :=
  EightRows .adcImm .adcZp .adcZpX .adcAbs .adcAbsX .adcAbsY .adcIndX .adcIndY
    0x69 0x65 0x75 0x6D 0x7D 0x79 0x61 0x71
    fun s m =>
      let sum := s.a.toNat + m.toNat + flagNat s.flags.c
      let r : Byte := BitVec.ofNat 8 sum
      { s with
        a := r
        flags := { withNZ s.flags r with
          c := decide (256 ≤ sum)
          v := decide (s.a.msb = m.msb ∧ r.msb ≠ s.a.msb) } }

/-- SBC, all eight rows, completes with A - M - (1 - C): C set when no borrow, V when A and M differ in sign and the result's
sign is not A's, N and Z from the result (R162). When the operand read faults SBC stops with that fault and nothing after the
read is done: a choice, of R62's decision D28 and log 14 (DEDUCED). -/
def Obligations.SbcResult : Prop :=
  EightRows .sbcImm .sbcZp .sbcZpX .sbcAbs .sbcAbsX .sbcAbsY .sbcIndX .sbcIndY
    0xE9 0xE5 0xF5 0xED 0xFD 0xF9 0xE1 0xF1
    fun s m =>
      let r : Byte := s.a - m - (if s.flags.c then 0 else 1)
      { s with
        a := r
        flags := { withNZ s.flags r with
          c := decide (m.toNat + 1 ≤ s.a.toNat + flagNat s.flags.c)
          v := decide (s.a.msb ≠ m.msb ∧ r.msb ≠ s.a.msb) } }

/-- CMP (eight rows), CPX and CPY (three each) complete with the flags of the register less M and no register written: C when
the register is at least M unsigned, Z when equal, N bit 7 of the difference, V unchanged (R163, R164, R165). When the
operand read faults they stop with that fault and nothing after the read is done: a choice, of R62's decision D28 and log 14
(DEDUCED). -/
def Obligations.CompareResult : Prop :=
  let flagsOf (f : Flags) (reg m : Byte) : Flags :=
    { f with c := decide (m.toNat ≤ reg.toNat), z := decide (reg = m), n := (reg - m).msb }
  EightRows .cmpImm .cmpZp .cmpZpX .cmpAbs .cmpAbsX .cmpAbsY .cmpIndX .cmpIndY
    0xC9 0xC5 0xD5 0xCD 0xDD 0xD9 0xC1 0xD1 (fun s m => { s with flags := flagsOf s.flags s.a m }) ∧
  (∀ b, ImmRow (.cpxImm b) [0xE0, b] b (fun s m => { s with flags := flagsOf s.flags s.x m })) ∧
  (∀ b, ReadRow (.cpxZp b) [0xE4, b] (.zp b) 3 false (fun s m => { s with flags := flagsOf s.flags s.x m })) ∧
  (∀ w, ReadRow (.cpxAbs w) [0xEC, w.extractLsb' 0 8, w.extractLsb' 8 8] (.abs w) 4 false
    (fun s m => { s with flags := flagsOf s.flags s.x m })) ∧
  (∀ b, ImmRow (.cpyImm b) [0xC0, b] b (fun s m => { s with flags := flagsOf s.flags s.y m })) ∧
  (∀ b, ReadRow (.cpyZp b) [0xC4, b] (.zp b) 3 false (fun s m => { s with flags := flagsOf s.flags s.y m })) ∧
  (∀ w, ReadRow (.cpyAbs w) [0xCC, w.extractLsb' 0 8, w.extractLsb' 8 8] (.abs w) 4 false
    (fun s m => { s with flags := flagsOf s.flags s.y m }))

/-- AND, ORA and EOR, all eight rows each, complete with A combined bitwise with M, N and Z from the result (R166, R167,
R168). When the operand read faults they stop with that fault and nothing after the read is done: a choice, of R62's decision
D28 and log 14 (DEDUCED). -/
def Obligations.LogicResult : Prop :=
  let combine (f : Byte → Byte → Byte) (s : State) (m : Byte) : State :=
    { s with a := f s.a m, flags := withNZ s.flags (f s.a m) }
  EightRows .andImm .andZp .andZpX .andAbs .andAbsX .andAbsY .andIndX .andIndY
    0x29 0x25 0x35 0x2D 0x3D 0x39 0x21 0x31 (combine fun a m => a &&& m) ∧
  EightRows .oraImm .oraZp .oraZpX .oraAbs .oraAbsX .oraAbsY .oraIndX .oraIndY
    0x09 0x05 0x15 0x0D 0x1D 0x19 0x01 0x11 (combine fun a m => a ||| m) ∧
  EightRows .eorImm .eorZp .eorZpX .eorAbs .eorAbsX .eorAbsY .eorIndX .eorIndY
    0x49 0x45 0x55 0x4D 0x5D 0x59 0x41 0x51 (combine fun a m => a ^^^ m)

/-- BIT, both rows, completes with N and V from M's bits 7 and 6 and Z from A AND M; A and C unchanged (R169). When the
operand read faults BIT stops with that fault and nothing after the read is done: a choice, of R62's decision D28 and log 14
(DEDUCED). -/
def Obligations.BitResult : Prop :=
  let effect (s : State) (m : Byte) : State :=
    { s with flags := { s.flags with n := m.getLsbD 7, v := m.getLsbD 6, z := decide (s.a &&& m = 0) } }
  (∀ b, ReadRow (.bitZp b) [0x24, b] (.zp b) 3 false effect) ∧
  (∀ w, ReadRow (.bitAbs w) [0x2C, w.extractLsb' 0 8, w.extractLsb' 8 8] (.abs w) 4 false effect)

/-- ASL, LSR, ROL and ROR, all five rows each, complete: the byte doubled or halved, the rotates with the old C shifted in, C
the bit shifted out, N and Z from the result (R180 to R184; one read and one write in the memory rows is decision D4). When
the read faults they stop with that fault and nothing is written: a choice, of R62's decision D28 and log 14 (DEDUCED). -/
def Obligations.ShiftRotateResult : Prop :=
  let left (m : Byte) (f : Flags) (r : Byte) : Byte × Flags := (r, { withNZ f r with c := decide (128 ≤ m.toNat) })
  let right (m : Byte) (f : Flags) (r : Byte) : Byte × Flags := (r, { withNZ f r with c := decide (m.toNat % 2 = 1) })
  let asl (m : Byte) (f : Flags) := left m f (BitVec.ofNat 8 (2 * m.toNat))
  let lsr (m : Byte) (f : Flags) := right m f (BitVec.ofNat 8 (m.toNat / 2))
  let rol (m : Byte) (f : Flags) := left m f (BitVec.ofNat 8 (2 * m.toNat + flagNat f.c))
  let ror (m : Byte) (f : Flags) := right m f (BitVec.ofNat 8 (m.toNat / 2 + 128 * flagNat f.c))
  AccRow .aslAcc [0x0A] asl ∧ FourRmwRows .aslZp .aslZpX .aslAbs .aslAbsX 0x06 0x16 0x0E 0x1E asl ∧
  AccRow .lsrAcc [0x4A] lsr ∧ FourRmwRows .lsrZp .lsrZpX .lsrAbs .lsrAbsX 0x46 0x56 0x4E 0x5E lsr ∧
  AccRow .rolAcc [0x2A] rol ∧ FourRmwRows .rolZp .rolZpX .rolAbs .rolAbsX 0x26 0x36 0x2E 0x3E rol ∧
  AccRow .rorAcc [0x6A] ror ∧ FourRmwRows .rorZp .rorZpX .rorAbs .rorAbsX 0x66 0x76 0x6E 0x7E ror

/-- INC and DEC, all four rows each, complete: the byte plus or minus one modulo 256, N and Z from it, C and V unchanged;
INX, INY, DEX and DEY complete likewise on their register in 2 cycles (R185 to R190). One read and one write in the memory
rows is R180's decision D4. When the read faults INC and DEC stop with that fault and nothing is written: a choice, of R62's
decision D28 and log 14 (DEDUCED). -/
def Obligations.IncDecResult : Prop :=
  let inc (m : Byte) (f : Flags) : Byte × Flags :=
    (BitVec.ofNat 8 ((m.toNat + 1) % 256), withNZ f (BitVec.ofNat 8 ((m.toNat + 1) % 256)))
  let dec (m : Byte) (f : Flags) : Byte × Flags :=
    (BitVec.ofNat 8 ((m.toNat + 255) % 256), withNZ f (BitVec.ofNat 8 ((m.toNat + 255) % 256)))
  FourRmwRows .incZp .incZpX .incAbs .incAbsX 0xE6 0xF6 0xEE 0xFE inc ∧
  FourRmwRows .decZp .decZpX .decAbs .decAbsX 0xC6 0xD6 0xCE 0xDE dec ∧
  ImpliedRow .inx 0xE8 (fun s =>
    { s with x := (inc s.x s.flags).1, flags := (inc s.x s.flags).2, cyc := s.cyc + 2 }) ∧
  ImpliedRow .iny 0xC8 (fun s =>
    { s with y := (inc s.y s.flags).1, flags := (inc s.y s.flags).2, cyc := s.cyc + 2 }) ∧
  ImpliedRow .dex 0xCA (fun s =>
    { s with x := (dec s.x s.flags).1, flags := (dec s.x s.flags).2, cyc := s.cyc + 2 }) ∧
  ImpliedRow .dey 0x88 (fun s =>
    { s with y := (dec s.y s.flags).1, flags := (dec s.y s.flags).2, cyc := s.cyc + 2 })

/-- The eight branches always complete: taken exactly on their flag's value, to the next instruction's address plus the signed
offset, in 2, 3 or 4 cycles (R200 to R208). -/
def Obligations.BranchResult : Prop :=
  BranchRow .bpl 0x10 Flags.n false ∧ BranchRow .bmi 0x30 Flags.n true ∧ BranchRow .bvc 0x50 Flags.v false ∧
  BranchRow .bvs 0x70 Flags.v true ∧ BranchRow .bcc 0x90 Flags.c false ∧ BranchRow .bcs 0xB0 Flags.c true ∧
  BranchRow .bne 0xD0 Flags.z false ∧ BranchRow .beq 0xF0 Flags.z true

/-- PHA and PHP push A and the status with bits 5 and 4 set, in 3 cycles; PLA and PLP pull into A, with N and Z, and into the
six flags, in 4; all always complete (R211, R213, and by decisions D7 and D8 R212, R214). -/
def Obligations.PushPullResult : Prop :=
  ImpliedRow .pha 0x48 (fun s =>
    { s with ram := s.ram.write (0x100 + s.sp.toNat) s.a, sp := s.sp - 1, cyc := s.cyc + 3 }) ∧
  ImpliedRow .php 0x08 (fun s =>
    { s with ram := s.ram.write (0x100 + s.sp.toNat) (statusByte s.flags true), sp := s.sp - 1, cyc := s.cyc + 3 }) ∧
  ImpliedRow .pla 0x68 (fun s =>
    let v := s.ram.read (0x100 + (s.sp + 1).toNat)
    { s with a := v, flags := withNZ s.flags v, sp := s.sp + 1, cyc := s.cyc + 4 }) ∧
  ImpliedRow .plp 0x28 (fun s =>
    let v := s.ram.read (0x100 + (s.sp + 1).toNat)
    { s with
      flags := { n := v.getLsbD 7, v := v.getLsbD 6, d := v.getLsbD 3, i := v.getLsbD 2, z := v.getLsbD 1, c := v.getLsbD 0 }
      sp := s.sp + 1
      cyc := s.cyc + 4 })

/-- JSR pushes the address of its own last byte, high then low, and jumps; RTS pulls low then high and adds one; both always
complete in 6 cycles (R215, R216). PC stands after the operand bytes when JSR runs. -/
def Obligations.SubroutineResult : Prop :=
  (∀ addr : Word, encode (.jsr addr) = [0x20, addr.extractLsb' 0 8, addr.extractLsb' 8 8] ∧
    ∀ s, exec (.jsr addr) s = .next { s with
      ram := (s.ram.write (0x100 + s.sp.toNat) ((s.pc - 1).extractLsb' 8 8)).write (0x100 + (s.sp - 1).toNat)
        ((s.pc - 1).extractLsb' 0 8)
      sp := s.sp - 2
      pc := addr
      cyc := s.cyc + 6 }) ∧
  ImpliedRow .rts 0x60 (fun s =>
    { s with
      sp := s.sp + 2
      pc := (s.ram.read (0x100 + (s.sp + 2).toNat) ++ s.ram.read (0x100 + (s.sp + 1).toNat)) + 1
      cyc := s.cyc + 6 })

/-- JMP absolute goes to its operand in 3 cycles; JMP indirect, when its two pointer bytes can be read, goes to their word in
5, the high byte coming from the start of the same page when the pointer's low byte is 0xFF (R143, R217); when one of them
faults, it stops with that fault and PC is not loaded: a choice, of R62's decision D28 and log 14 (DEDUCED). -/
def Obligations.JumpResult : Prop :=
  (∀ addr : Word, encode (.jmpAbs addr) = [0x4C, addr.extractLsb' 0 8, addr.extractLsb' 8 8] ∧
    ∀ s, exec (.jmpAbs addr) s = .next { s with pc := addr, cyc := s.cyc + 3 }) ∧
  ∀ ptr : Word, encode (.jmpInd ptr) = [0x6C, ptr.extractLsb' 0 8, ptr.extractLsb' 8 8] ∧
    (∀ s lo s1 hi s2, s.busRead ptr = .ok (lo, s1) →
      s1.busRead (BitVec.ofNat 16 (256 * (ptr.toNat / 256) + (ptr.toNat + 1) % 256)) = .ok (hi, s2) →
      exec (.jmpInd ptr) s = .next { s2 with pc := hi ++ lo, cyc := s2.cyc + 5 }) ∧
    (∀ s e, s.busRead ptr = .error e → exec (.jmpInd ptr) s = .fault e) ∧
    ∀ s lo s1 e, s.busRead ptr = .ok (lo, s1) →
      s1.busRead (BitVec.ofNat 16 (256 * (ptr.toNat / 256) + (ptr.toNat + 1) % 256)) = .error e →
      exec (.jmpInd ptr) s = .fault e

/-- BRK always completes in 7 cycles: it pushes the address two past its own, PC + 1 as it stands after the opcode, and the
status with bits 5 and 4 set, sets I, leaves the other flags, and loads PC from 0xFFFE (R218, R309; D unchanged by D9). RTI
always completes in 6: the status is pulled with bits 5 and 4 ignored, then PC low and high, with nothing added (R219). -/
def Obligations.BreakAndReturnResult : Prop :=
  ImpliedRow .brk 0x00 (fun s =>
    { s with
      ram := ((s.ram.write (0x100 + s.sp.toNat) ((s.pc + 1).extractLsb' 8 8)).write (0x100 + (s.sp - 1).toNat)
        ((s.pc + 1).extractLsb' 0 8)).write (0x100 + (s.sp - 2).toNat) (statusByte s.flags true)
      sp := s.sp - 3
      flags := { s.flags with i := true }
      pc := vectorWord s.cart 0xFFFE
      cyc := s.cyc + 7 }) ∧
  ImpliedRow .rti 0x40 (fun s =>
    let v := s.ram.read (0x100 + (s.sp + 1).toNat)
    { s with
      flags := { n := v.getLsbD 7, v := v.getLsbD 6, d := v.getLsbD 3, i := v.getLsbD 2, z := v.getLsbD 1, c := v.getLsbD 0 }
      sp := s.sp + 3
      pc := s.ram.read (0x100 + (s.sp + 3).toNat) ++ s.ram.read (0x100 + (s.sp + 2).toNat)
      cyc := s.cyc + 6 })

/-- Going and coming back: RTI run where BRK, an NMI or an IRQ went restores every flag, SP and the address pushed, BRK + 2 or
the interrupted PC (R219, R313, conflict C5); RTS run where JSR went restores SP and continues after the JSR (R215, R216). -/
def Obligations.CallAndReturnRoundTrips : Prop :=
  ∀ s t u : State,
    (exec .brk s = .next t → exec .rti t = .next u → u.flags = s.flags ∧ u.sp = s.sp ∧ u.pc = s.pc + 1) ∧
    (∀ vector, vector = nmiVector ∨ vector = irqVector → interruptEntry vector s = .next t → exec .rti t = .next u →
      u.flags = s.flags ∧ u.sp = s.sp ∧ u.pc = s.pc) ∧
    (∀ addr, exec (.jsr addr) s = .next t → exec .rts t = .next u → u.sp = s.sp ∧ u.pc = s.pc)

/-- LDA (eight rows), LDX and LDY (five each) complete with the register loaded, N and Z from it (R230, R231, R232). When the
operand read faults they stop with that fault and nothing after the read is done: a choice, of R62's decision D28 and log 14
(DEDUCED). -/
def Obligations.LoadResult : Prop :=
  let toX (s : State) (m : Byte) : State := { s with x := m, flags := withNZ s.flags m }
  let toY (s : State) (m : Byte) : State := { s with y := m, flags := withNZ s.flags m }
  EightRows .ldaImm .ldaZp .ldaZpX .ldaAbs .ldaAbsX .ldaAbsY .ldaIndX .ldaIndY
    0xA9 0xA5 0xB5 0xAD 0xBD 0xB9 0xA1 0xB1 (fun s m => { s with a := m, flags := withNZ s.flags m }) ∧
  (∀ b, ImmRow (.ldxImm b) [0xA2, b] b toX) ∧ (∀ b, ReadRow (.ldxZp b) [0xA6, b] (.zp b) 3 false toX) ∧
  (∀ b, ReadRow (.ldxZpY b) [0xB6, b] (.zpY b) 4 false toX) ∧
  (∀ w, ReadRow (.ldxAbs w) [0xAE, w.extractLsb' 0 8, w.extractLsb' 8 8] (.abs w) 4 false toX) ∧
  (∀ w, ReadRow (.ldxAbsY w) [0xBE, w.extractLsb' 0 8, w.extractLsb' 8 8] (.absY w) 4 true toX) ∧
  (∀ b, ImmRow (.ldyImm b) [0xA0, b] b toY) ∧ (∀ b, ReadRow (.ldyZp b) [0xA4, b] (.zp b) 3 false toY) ∧
  (∀ b, ReadRow (.ldyZpX b) [0xB4, b] (.zpX b) 4 false toY) ∧
  (∀ w, ReadRow (.ldyAbs w) [0xAC, w.extractLsb' 0 8, w.extractLsb' 8 8] (.abs w) 4 false toY) ∧
  (∀ w, ReadRow (.ldyAbsX w) [0xBC, w.extractLsb' 0 8, w.extractLsb' 8 8] (.absX w) 4 true toY)

/-- STA (seven rows), STX and STY (three each) complete with one write of the register at the resolved address, no read of it,
no flag written and no page-cross cycle (R233, R234, R235; not reading the target is D5). -/
def Obligations.StoreResult : Prop :=
  (∀ b, StoreRow (.staZp b) [0x85, b] (.zp b) 3 State.a) ∧ (∀ b, StoreRow (.staZpX b) [0x95, b] (.zpX b) 4 State.a) ∧
  (∀ w, StoreRow (.staAbs w) [0x8D, w.extractLsb' 0 8, w.extractLsb' 8 8] (.abs w) 4 State.a) ∧
  (∀ w, StoreRow (.staAbsX w) [0x9D, w.extractLsb' 0 8, w.extractLsb' 8 8] (.absX w) 5 State.a) ∧
  (∀ w, StoreRow (.staAbsY w) [0x99, w.extractLsb' 0 8, w.extractLsb' 8 8] (.absY w) 5 State.a) ∧
  (∀ b, StoreRow (.staIndX b) [0x81, b] (.indX b) 6 State.a) ∧ (∀ b, StoreRow (.staIndY b) [0x91, b] (.indY b) 6 State.a) ∧
  (∀ b, StoreRow (.stxZp b) [0x86, b] (.zp b) 3 State.x) ∧ (∀ b, StoreRow (.stxZpY b) [0x96, b] (.zpY b) 4 State.x) ∧
  (∀ w, StoreRow (.stxAbs w) [0x8E, w.extractLsb' 0 8, w.extractLsb' 8 8] (.abs w) 4 State.x) ∧
  (∀ b, StoreRow (.styZp b) [0x84, b] (.zp b) 3 State.y) ∧ (∀ b, StoreRow (.styZpX b) [0x94, b] (.zpX b) 4 State.y) ∧
  (∀ w, StoreRow (.styAbs w) [0x8C, w.extractLsb' 0 8, w.extractLsb' 8 8] (.abs w) 4 State.y)

/-- The transfers, the flag instructions and NOP always complete in 2 cycles with nothing changed but the register or flag
named: every transfer but TXS writes N and Z (R236 to R249). -/
def Obligations.TransferFlagNopResult : Prop :=
  ImpliedRow .tax 0xAA (fun s => { s with x := s.a, flags := withNZ s.flags s.a, cyc := s.cyc + 2 }) ∧
  ImpliedRow .tay 0xA8 (fun s => { s with y := s.a, flags := withNZ s.flags s.a, cyc := s.cyc + 2 }) ∧
  ImpliedRow .txa 0x8A (fun s => { s with a := s.x, flags := withNZ s.flags s.x, cyc := s.cyc + 2 }) ∧
  ImpliedRow .tya 0x98 (fun s => { s with a := s.y, flags := withNZ s.flags s.y, cyc := s.cyc + 2 }) ∧
  ImpliedRow .tsx 0xBA (fun s => { s with x := s.sp, flags := withNZ s.flags s.sp, cyc := s.cyc + 2 }) ∧
  ImpliedRow .txs 0x9A (fun s => { s with sp := s.x, cyc := s.cyc + 2 }) ∧
  ImpliedRow .clc 0x18 (fun s => { s with flags := { s.flags with c := false }, cyc := s.cyc + 2 }) ∧
  ImpliedRow .sec 0x38 (fun s => { s with flags := { s.flags with c := true }, cyc := s.cyc + 2 }) ∧
  ImpliedRow .cli 0x58 (fun s => { s with flags := { s.flags with i := false }, cyc := s.cyc + 2 }) ∧
  ImpliedRow .sei 0x78 (fun s => { s with flags := { s.flags with i := true }, cyc := s.cyc + 2 }) ∧
  ImpliedRow .clv 0xB8 (fun s => { s with flags := { s.flags with v := false }, cyc := s.cyc + 2 }) ∧
  ImpliedRow .cld 0xD8 (fun s => { s with flags := { s.flags with d := false }, cyc := s.cyc + 2 }) ∧
  ImpliedRow .sed 0xF8 (fun s => { s with flags := { s.flags with d := true }, cyc := s.cyc + 2 }) ∧
  ImpliedRow .nop 0xEA (fun s => { s with cyc := s.cyc + 2 })

/-- An unassigned byte always completes: its address, the one before PC, and the byte are appended to the anomaly log, 1 cycle is
counted, and nothing else changes (R270). -/
def Obligations.UnassignedResult : Prop :=
  ∀ op : Byte, ImpliedRow (.unassigned op) op (fun s =>
    { s with anomalies := s.anomalies ++ [(s.pc - 1, op)], cyc := s.cyc + 1 })

/-- Every operand can be read whenever the cartridge has CHR, so that the rows above complete from every such state; and reading
an operand changes only the PPU and the draw index (R50, R62, R65). -/
def Obligations.OperandsReadable : Prop :=
  ∀ (s : State) (mode : MemMode),
    (∃ t, s.resolve mode = .ok (t, s)) ∧
    (0 < s.cart.chrUnits → ∃ m crossed s1, s.loadOperand mode = .ok (m, crossed, s1)) ∧
    (0 < s.cart.chrUnits → ∀ addr, ∃ m s1, s.busRead addr = .ok (m, s1)) ∧
    ∀ m crossed s1, s.loadOperand mode = .ok (m, crossed, s1) →
      s1 = { s with ppu := s1.ppu, draws := s1.draws }
end

