-- ==== Sys2Proof/Laws/Mem.lean ====
section
/-! SUPPORT. The laws of a byte store: a read after a write, and that every operation keeps the canonical form and the
bounds. -/

namespace Sys2Proof.Machine

/-- An index that is not listed reads as `unlisted`. -/
theorem Memory.read_of_not_listed {m : Memory} {a : Nat} (h : ∀ e ∈ m, e.1 ≠ a) : m.read a = Memory.unlisted := by
  induction m with
  | nil => rfl
  | cons e m ih =>
    simp only [List.mem_cons, forall_eq_or_imp] at h
    simp [Memory.read, h.1, ih h.2]

/-- Appending entries for other indexes does not change a read. -/
theorem Memory.read_append_left {m₁ m₂ : Memory} {a : Nat} (h : ∀ e ∈ m₂, e.1 ≠ a) :
    Memory.read (m₁ ++ m₂) a = m₁.read a := by
  induction m₁ with
  | nil => simpa [Memory.read] using Memory.read_of_not_listed h
  | cons e m ih => by_cases he : e.1 = a <;> simp [Memory.read, he, ih]

/-- Entries for other indexes in front do not change a read. -/
theorem Memory.read_append_right {m₁ m₂ : Memory} {a : Nat} (h : ∀ e ∈ m₁, e.1 ≠ a) :
    Memory.read (m₁ ++ m₂) a = m₂.read a := by
  induction m₁ with
  | nil => rfl
  | cons e m ih =>
    simp only [List.mem_cons, forall_eq_or_imp] at h
    simp [Memory.read, h.1, ih h.2]

/-- Keeping the entries of some indexes, `a` among them, does not change the read of `a`. -/
theorem Memory.read_filter {m : Memory} {a : Nat} {p : Nat → Bool} (h : p a = true) :
    Memory.read (m.filter fun e => p e.1) a = m.read a := by
  induction m with
  | nil => rfl
  | cons e m ih =>
    by_cases he : e.1 = a
    · simp [Memory.read, he, h]
    · by_cases hp : p e.1 = true <;> simp [Memory.read, he, hp, ih]

/-- A read after a write to the same index gives the value written. -/
@[simp] theorem Memory.read_write_same (m : Memory) (a : Nat) (v : Byte) : (m.write a v).read a = v := by
  have hl : ∀ e ∈ m.filter (fun e => e.1 < a), e.1 ≠ a := by simp; omega
  have hr : ∀ e ∈ m.filter (fun e => a < e.1), e.1 ≠ a := by simp; omega
  rw [Memory.write, Memory.read_append_left hr, Memory.read_append_right hl]
  split
  · next h => simp [Memory.read, h]
  · simp [Memory.read]

/-- A read after a write to another index gives what it gave before. -/
theorem Memory.read_write_ne (m : Memory) {a b : Nat} (v : Byte) (h : b ≠ a) : (m.write a v).read b = m.read b := by
  have hm : ∀ e ∈ (if v = Memory.unlisted then [] else [(a, v)] : Memory), e.1 ≠ b := by
    split <;> simp
    omega
  rcases Nat.lt_or_gt_of_ne h with hb | hb
  · have hr : ∀ e ∈ m.filter (fun e => a < e.1), e.1 ≠ b := by simp; omega
    rw [Memory.write, Memory.read_append_left hr, Memory.read_append_left hm]
    exact Memory.read_filter (p := fun k => decide (k < a)) (by simpa using hb)
  · have hl : ∀ e ∈ m.filter (fun e => e.1 < a), e.1 ≠ b := by simp; omega
    rw [Memory.write, List.append_assoc, Memory.read_append_right hl, Memory.read_append_right hm]
    exact Memory.read_filter (p := fun k => decide (a < k)) (by simpa using hb)

/-- The canonical form as a property of the list. -/
theorem Memory.wf_iff (m : Memory) :
    m.wf = true ↔ List.Pairwise (fun e f : Host.Cell => e.1 < f.1) m ∧ ∀ e ∈ m, e.2 ≠ Memory.unlisted := by
  induction m with
  | nil => simp [Memory.wf]
  | cons e m ih =>
    simp only [Memory.wf, Bool.and_eq_true, bne_iff_ne, List.all_eq_true, decide_eq_true_eq, ih, List.pairwise_cons,
      List.mem_cons, forall_eq_or_imp]
    tauto

theorem Memory.below_iff (n : Nat) (m : Memory) : m.below n = true ↔ ∀ e ∈ m, e.1 < n := by
  simp [Memory.below]

/-- A write keeps the canonical form. -/
theorem Memory.write_wf {m : Memory} (h : m.wf = true) (a : Nat) (v : Byte) : (m.write a v).wf = true := by
  rw [Memory.wf_iff] at h ⊢
  obtain ⟨hs, hn⟩ := h
  constructor
  · rw [Memory.write, List.pairwise_append, List.pairwise_append]
    refine ⟨⟨hs.filter _, by split <;> simp, ?_⟩, hs.filter _, ?_⟩
    · intro e he f hf
      split at hf <;> simp_all
    · intro e he f hf
      simp only [List.mem_append, List.mem_filter, decide_eq_true_eq] at he hf
      rcases he with he | he
      · omega
      · split at he <;> simp_all
  · intro e he
    simp only [Memory.write, List.mem_append, List.mem_filter] at he
    rcases he with (he | he) | he
    · exact hn e he.1
    · split at he <;> simp_all
    · exact hn e he.1

/-- A write within bounds keeps every index within bounds. -/
theorem Memory.write_below {m : Memory} {n : Nat} (h : m.below n = true) {a : Nat} (ha : a < n) (v : Byte) :
    (m.write a v).below n = true := by
  rw [Memory.below_iff] at h ⊢
  intro e he
  simp only [Memory.write, List.mem_append, List.mem_filter] at he
  rcases he with (he | he) | he
  · exact h e he.1
  · split at he <;> simp_all
  · exact h e he.1

/-- The bytes of a list, stored from an index on, are in canonical form, at or after that index and before its end. -/
theorem Memory.ofBytes_bounds (a : Nat) (bs : List Byte) : ∀ e ∈ Memory.ofBytes a bs, a ≤ e.1 ∧ e.1 < a + bs.length := by
  induction bs generalizing a with
  | nil => simp [Memory.ofBytes]
  | cons b bs ih =>
    intro e he
    have h := ih (a + 1) e
    simp only [Memory.ofBytes] at he
    split at he
    · have := h he; simp; omega
    · rcases List.mem_cons.1 he with rfl | he
      · simp
      · have := h he; simp; omega

theorem Memory.ofBytes_wf (a : Nat) (bs : List Byte) : (Memory.ofBytes a bs).wf = true := by
  induction bs generalizing a with
  | nil => rfl
  | cons b bs ih =>
    simp only [Memory.ofBytes]
    split
    · exact ih _
    · next hb =>
      simp only [Memory.wf, ih, Bool.and_true, Bool.and_eq_true, bne_iff_ne, List.all_eq_true, decide_eq_true_eq]
      exact ⟨hb, fun e he => by have := Memory.ofBytes_bounds (a + 1) bs e he; omega⟩

/-- Reading the store made from a list gives the list's byte, and `unlisted` past its end. -/
theorem Memory.read_ofBytes (a : Nat) (bs : List Byte) (k : Nat) :
    (Memory.ofBytes a bs).read (a + k) = bs.getD k Memory.unlisted := by
  induction bs generalizing a k with
  | nil => rfl
  | cons b bs ih =>
    cases k with
    | zero =>
      simp only [Memory.ofBytes]
      split
      · next hb =>
        rw [Memory.read_of_not_listed fun e he => by have := Memory.ofBytes_bounds (a + 1) bs e he; omega]
        simpa using hb.symm
      · simp [Memory.read]
    | succ k =>
      have := ih (a + 1) k
      simp only [Memory.ofBytes]
      split
      · simpa [show a + 1 + k = a + (k + 1) by omega] using this
      · simpa [Memory.read, show a + 1 + k = a + (k + 1) by omega] using this

end Sys2Proof.Machine
end

