-- ==== Sys2Proof/Laws/State.lean ====
section
/-! SUPPORT. What each named update of the state leaves in each field: the value written in its own, the old one elsewhere. -/

namespace Sys2Proof.Machine

@[simp] theorem State.setA_a (s : State) (v : Byte) : (s.setA v).a = v := rfl
@[simp] theorem State.setA_x (s : State) (v : Byte) : (s.setA v).x = s.x := rfl
@[simp] theorem State.setA_y (s : State) (v : Byte) : (s.setA v).y = s.y := rfl
@[simp] theorem State.setA_sp (s : State) (v : Byte) : (s.setA v).sp = s.sp := rfl
@[simp] theorem State.setA_pc (s : State) (v : Byte) : (s.setA v).pc = s.pc := rfl
@[simp] theorem State.setA_flags (s : State) (v : Byte) : (s.setA v).flags = s.flags := rfl
@[simp] theorem State.setA_ram (s : State) (v : Byte) : (s.setA v).ram = s.ram := rfl
@[simp] theorem State.setA_cyc (s : State) (v : Byte) : (s.setA v).cyc = s.cyc := rfl
@[simp] theorem State.setA_nmiPending (s : State) (v : Byte) : (s.setA v).nmiPending = s.nmiPending := rfl
@[simp] theorem State.setA_anomalies (s : State) (v : Byte) : (s.setA v).anomalies = s.anomalies := rfl
@[simp] theorem State.setA_faulted (s : State) (v : Byte) : (s.setA v).faulted = s.faulted := rfl
@[simp] theorem State.setA_irqLine (s : State) (v : Byte) : (s.setA v).irqLine = s.irqLine := rfl
@[simp] theorem State.setA_cart (s : State) (v : Byte) : (s.setA v).cart = s.cart := rfl
@[simp] theorem State.setA_ppu (s : State) (v : Byte) : (s.setA v).ppu = s.ppu := rfl
@[simp] theorem State.setA_draws (s : State) (v : Byte) : (s.setA v).draws = s.draws := rfl

@[simp] theorem State.setX_a (s : State) (v : Byte) : (s.setX v).a = s.a := rfl
@[simp] theorem State.setX_x (s : State) (v : Byte) : (s.setX v).x = v := rfl
@[simp] theorem State.setX_y (s : State) (v : Byte) : (s.setX v).y = s.y := rfl
@[simp] theorem State.setX_sp (s : State) (v : Byte) : (s.setX v).sp = s.sp := rfl
@[simp] theorem State.setX_pc (s : State) (v : Byte) : (s.setX v).pc = s.pc := rfl
@[simp] theorem State.setX_flags (s : State) (v : Byte) : (s.setX v).flags = s.flags := rfl
@[simp] theorem State.setX_ram (s : State) (v : Byte) : (s.setX v).ram = s.ram := rfl
@[simp] theorem State.setX_cyc (s : State) (v : Byte) : (s.setX v).cyc = s.cyc := rfl
@[simp] theorem State.setX_nmiPending (s : State) (v : Byte) : (s.setX v).nmiPending = s.nmiPending := rfl
@[simp] theorem State.setX_anomalies (s : State) (v : Byte) : (s.setX v).anomalies = s.anomalies := rfl
@[simp] theorem State.setX_faulted (s : State) (v : Byte) : (s.setX v).faulted = s.faulted := rfl
@[simp] theorem State.setX_irqLine (s : State) (v : Byte) : (s.setX v).irqLine = s.irqLine := rfl
@[simp] theorem State.setX_cart (s : State) (v : Byte) : (s.setX v).cart = s.cart := rfl
@[simp] theorem State.setX_ppu (s : State) (v : Byte) : (s.setX v).ppu = s.ppu := rfl
@[simp] theorem State.setX_draws (s : State) (v : Byte) : (s.setX v).draws = s.draws := rfl

@[simp] theorem State.setY_a (s : State) (v : Byte) : (s.setY v).a = s.a := rfl
@[simp] theorem State.setY_x (s : State) (v : Byte) : (s.setY v).x = s.x := rfl
@[simp] theorem State.setY_y (s : State) (v : Byte) : (s.setY v).y = v := rfl
@[simp] theorem State.setY_sp (s : State) (v : Byte) : (s.setY v).sp = s.sp := rfl
@[simp] theorem State.setY_pc (s : State) (v : Byte) : (s.setY v).pc = s.pc := rfl
@[simp] theorem State.setY_flags (s : State) (v : Byte) : (s.setY v).flags = s.flags := rfl
@[simp] theorem State.setY_ram (s : State) (v : Byte) : (s.setY v).ram = s.ram := rfl
@[simp] theorem State.setY_cyc (s : State) (v : Byte) : (s.setY v).cyc = s.cyc := rfl
@[simp] theorem State.setY_nmiPending (s : State) (v : Byte) : (s.setY v).nmiPending = s.nmiPending := rfl
@[simp] theorem State.setY_anomalies (s : State) (v : Byte) : (s.setY v).anomalies = s.anomalies := rfl
@[simp] theorem State.setY_faulted (s : State) (v : Byte) : (s.setY v).faulted = s.faulted := rfl
@[simp] theorem State.setY_irqLine (s : State) (v : Byte) : (s.setY v).irqLine = s.irqLine := rfl
@[simp] theorem State.setY_cart (s : State) (v : Byte) : (s.setY v).cart = s.cart := rfl
@[simp] theorem State.setY_ppu (s : State) (v : Byte) : (s.setY v).ppu = s.ppu := rfl
@[simp] theorem State.setY_draws (s : State) (v : Byte) : (s.setY v).draws = s.draws := rfl

@[simp] theorem State.setSp_a (s : State) (v : Byte) : (s.setSp v).a = s.a := rfl
@[simp] theorem State.setSp_x (s : State) (v : Byte) : (s.setSp v).x = s.x := rfl
@[simp] theorem State.setSp_y (s : State) (v : Byte) : (s.setSp v).y = s.y := rfl
@[simp] theorem State.setSp_sp (s : State) (v : Byte) : (s.setSp v).sp = v := rfl
@[simp] theorem State.setSp_pc (s : State) (v : Byte) : (s.setSp v).pc = s.pc := rfl
@[simp] theorem State.setSp_flags (s : State) (v : Byte) : (s.setSp v).flags = s.flags := rfl
@[simp] theorem State.setSp_ram (s : State) (v : Byte) : (s.setSp v).ram = s.ram := rfl
@[simp] theorem State.setSp_cyc (s : State) (v : Byte) : (s.setSp v).cyc = s.cyc := rfl
@[simp] theorem State.setSp_nmiPending (s : State) (v : Byte) : (s.setSp v).nmiPending = s.nmiPending := rfl
@[simp] theorem State.setSp_anomalies (s : State) (v : Byte) : (s.setSp v).anomalies = s.anomalies := rfl
@[simp] theorem State.setSp_faulted (s : State) (v : Byte) : (s.setSp v).faulted = s.faulted := rfl
@[simp] theorem State.setSp_irqLine (s : State) (v : Byte) : (s.setSp v).irqLine = s.irqLine := rfl
@[simp] theorem State.setSp_cart (s : State) (v : Byte) : (s.setSp v).cart = s.cart := rfl
@[simp] theorem State.setSp_ppu (s : State) (v : Byte) : (s.setSp v).ppu = s.ppu := rfl
@[simp] theorem State.setSp_draws (s : State) (v : Byte) : (s.setSp v).draws = s.draws := rfl

@[simp] theorem State.setPc_a (s : State) (v : Word) : (s.setPc v).a = s.a := rfl
@[simp] theorem State.setPc_x (s : State) (v : Word) : (s.setPc v).x = s.x := rfl
@[simp] theorem State.setPc_y (s : State) (v : Word) : (s.setPc v).y = s.y := rfl
@[simp] theorem State.setPc_sp (s : State) (v : Word) : (s.setPc v).sp = s.sp := rfl
@[simp] theorem State.setPc_pc (s : State) (v : Word) : (s.setPc v).pc = v := rfl
@[simp] theorem State.setPc_flags (s : State) (v : Word) : (s.setPc v).flags = s.flags := rfl
@[simp] theorem State.setPc_ram (s : State) (v : Word) : (s.setPc v).ram = s.ram := rfl
@[simp] theorem State.setPc_cyc (s : State) (v : Word) : (s.setPc v).cyc = s.cyc := rfl
@[simp] theorem State.setPc_nmiPending (s : State) (v : Word) : (s.setPc v).nmiPending = s.nmiPending := rfl
@[simp] theorem State.setPc_anomalies (s : State) (v : Word) : (s.setPc v).anomalies = s.anomalies := rfl
@[simp] theorem State.setPc_faulted (s : State) (v : Word) : (s.setPc v).faulted = s.faulted := rfl
@[simp] theorem State.setPc_irqLine (s : State) (v : Word) : (s.setPc v).irqLine = s.irqLine := rfl
@[simp] theorem State.setPc_cart (s : State) (v : Word) : (s.setPc v).cart = s.cart := rfl
@[simp] theorem State.setPc_ppu (s : State) (v : Word) : (s.setPc v).ppu = s.ppu := rfl
@[simp] theorem State.setPc_draws (s : State) (v : Word) : (s.setPc v).draws = s.draws := rfl

@[simp] theorem State.setFlags_a (s : State) (v : Flags) : (s.setFlags v).a = s.a := rfl
@[simp] theorem State.setFlags_x (s : State) (v : Flags) : (s.setFlags v).x = s.x := rfl
@[simp] theorem State.setFlags_y (s : State) (v : Flags) : (s.setFlags v).y = s.y := rfl
@[simp] theorem State.setFlags_sp (s : State) (v : Flags) : (s.setFlags v).sp = s.sp := rfl
@[simp] theorem State.setFlags_pc (s : State) (v : Flags) : (s.setFlags v).pc = s.pc := rfl
@[simp] theorem State.setFlags_flags (s : State) (v : Flags) : (s.setFlags v).flags = v := rfl
@[simp] theorem State.setFlags_ram (s : State) (v : Flags) : (s.setFlags v).ram = s.ram := rfl
@[simp] theorem State.setFlags_cyc (s : State) (v : Flags) : (s.setFlags v).cyc = s.cyc := rfl
@[simp] theorem State.setFlags_nmiPending (s : State) (v : Flags) : (s.setFlags v).nmiPending = s.nmiPending := rfl
@[simp] theorem State.setFlags_anomalies (s : State) (v : Flags) : (s.setFlags v).anomalies = s.anomalies := rfl
@[simp] theorem State.setFlags_faulted (s : State) (v : Flags) : (s.setFlags v).faulted = s.faulted := rfl
@[simp] theorem State.setFlags_irqLine (s : State) (v : Flags) : (s.setFlags v).irqLine = s.irqLine := rfl
@[simp] theorem State.setFlags_cart (s : State) (v : Flags) : (s.setFlags v).cart = s.cart := rfl
@[simp] theorem State.setFlags_ppu (s : State) (v : Flags) : (s.setFlags v).ppu = s.ppu := rfl
@[simp] theorem State.setFlags_draws (s : State) (v : Flags) : (s.setFlags v).draws = s.draws := rfl

@[simp] theorem State.setRam_a (s : State) (v : Memory) : (s.setRam v).a = s.a := rfl
@[simp] theorem State.setRam_x (s : State) (v : Memory) : (s.setRam v).x = s.x := rfl
@[simp] theorem State.setRam_y (s : State) (v : Memory) : (s.setRam v).y = s.y := rfl
@[simp] theorem State.setRam_sp (s : State) (v : Memory) : (s.setRam v).sp = s.sp := rfl
@[simp] theorem State.setRam_pc (s : State) (v : Memory) : (s.setRam v).pc = s.pc := rfl
@[simp] theorem State.setRam_flags (s : State) (v : Memory) : (s.setRam v).flags = s.flags := rfl
@[simp] theorem State.setRam_ram (s : State) (v : Memory) : (s.setRam v).ram = v := rfl
@[simp] theorem State.setRam_cyc (s : State) (v : Memory) : (s.setRam v).cyc = s.cyc := rfl
@[simp] theorem State.setRam_nmiPending (s : State) (v : Memory) : (s.setRam v).nmiPending = s.nmiPending := rfl
@[simp] theorem State.setRam_anomalies (s : State) (v : Memory) : (s.setRam v).anomalies = s.anomalies := rfl
@[simp] theorem State.setRam_faulted (s : State) (v : Memory) : (s.setRam v).faulted = s.faulted := rfl
@[simp] theorem State.setRam_irqLine (s : State) (v : Memory) : (s.setRam v).irqLine = s.irqLine := rfl
@[simp] theorem State.setRam_cart (s : State) (v : Memory) : (s.setRam v).cart = s.cart := rfl
@[simp] theorem State.setRam_ppu (s : State) (v : Memory) : (s.setRam v).ppu = s.ppu := rfl
@[simp] theorem State.setRam_draws (s : State) (v : Memory) : (s.setRam v).draws = s.draws := rfl

@[simp] theorem State.setCyc_a (s : State) (v : Nat) : (s.setCyc v).a = s.a := rfl
@[simp] theorem State.setCyc_x (s : State) (v : Nat) : (s.setCyc v).x = s.x := rfl
@[simp] theorem State.setCyc_y (s : State) (v : Nat) : (s.setCyc v).y = s.y := rfl
@[simp] theorem State.setCyc_sp (s : State) (v : Nat) : (s.setCyc v).sp = s.sp := rfl
@[simp] theorem State.setCyc_pc (s : State) (v : Nat) : (s.setCyc v).pc = s.pc := rfl
@[simp] theorem State.setCyc_flags (s : State) (v : Nat) : (s.setCyc v).flags = s.flags := rfl
@[simp] theorem State.setCyc_ram (s : State) (v : Nat) : (s.setCyc v).ram = s.ram := rfl
@[simp] theorem State.setCyc_cyc (s : State) (v : Nat) : (s.setCyc v).cyc = v := rfl
@[simp] theorem State.setCyc_nmiPending (s : State) (v : Nat) : (s.setCyc v).nmiPending = s.nmiPending := rfl
@[simp] theorem State.setCyc_anomalies (s : State) (v : Nat) : (s.setCyc v).anomalies = s.anomalies := rfl
@[simp] theorem State.setCyc_faulted (s : State) (v : Nat) : (s.setCyc v).faulted = s.faulted := rfl
@[simp] theorem State.setCyc_irqLine (s : State) (v : Nat) : (s.setCyc v).irqLine = s.irqLine := rfl
@[simp] theorem State.setCyc_cart (s : State) (v : Nat) : (s.setCyc v).cart = s.cart := rfl
@[simp] theorem State.setCyc_ppu (s : State) (v : Nat) : (s.setCyc v).ppu = s.ppu := rfl
@[simp] theorem State.setCyc_draws (s : State) (v : Nat) : (s.setCyc v).draws = s.draws := rfl

@[simp] theorem State.setNmiPending_a (s : State) (v : Bool) : (s.setNmiPending v).a = s.a := rfl
@[simp] theorem State.setNmiPending_x (s : State) (v : Bool) : (s.setNmiPending v).x = s.x := rfl
@[simp] theorem State.setNmiPending_y (s : State) (v : Bool) : (s.setNmiPending v).y = s.y := rfl
@[simp] theorem State.setNmiPending_sp (s : State) (v : Bool) : (s.setNmiPending v).sp = s.sp := rfl
@[simp] theorem State.setNmiPending_pc (s : State) (v : Bool) : (s.setNmiPending v).pc = s.pc := rfl
@[simp] theorem State.setNmiPending_flags (s : State) (v : Bool) : (s.setNmiPending v).flags = s.flags := rfl
@[simp] theorem State.setNmiPending_ram (s : State) (v : Bool) : (s.setNmiPending v).ram = s.ram := rfl
@[simp] theorem State.setNmiPending_cyc (s : State) (v : Bool) : (s.setNmiPending v).cyc = s.cyc := rfl
@[simp] theorem State.setNmiPending_nmiPending (s : State) (v : Bool) : (s.setNmiPending v).nmiPending = v := rfl
@[simp] theorem State.setNmiPending_anomalies (s : State) (v : Bool) : (s.setNmiPending v).anomalies = s.anomalies := rfl
@[simp] theorem State.setNmiPending_faulted (s : State) (v : Bool) : (s.setNmiPending v).faulted = s.faulted := rfl
@[simp] theorem State.setNmiPending_irqLine (s : State) (v : Bool) : (s.setNmiPending v).irqLine = s.irqLine := rfl
@[simp] theorem State.setNmiPending_cart (s : State) (v : Bool) : (s.setNmiPending v).cart = s.cart := rfl
@[simp] theorem State.setNmiPending_ppu (s : State) (v : Bool) : (s.setNmiPending v).ppu = s.ppu := rfl
@[simp] theorem State.setNmiPending_draws (s : State) (v : Bool) : (s.setNmiPending v).draws = s.draws := rfl

@[simp] theorem State.setAnomalies_a (s : State) (v : List (Word × Byte)) : (s.setAnomalies v).a = s.a := rfl
@[simp] theorem State.setAnomalies_x (s : State) (v : List (Word × Byte)) : (s.setAnomalies v).x = s.x := rfl
@[simp] theorem State.setAnomalies_y (s : State) (v : List (Word × Byte)) : (s.setAnomalies v).y = s.y := rfl
@[simp] theorem State.setAnomalies_sp (s : State) (v : List (Word × Byte)) : (s.setAnomalies v).sp = s.sp := rfl
@[simp] theorem State.setAnomalies_pc (s : State) (v : List (Word × Byte)) : (s.setAnomalies v).pc = s.pc := rfl
@[simp] theorem State.setAnomalies_flags (s : State) (v : List (Word × Byte)) : (s.setAnomalies v).flags = s.flags := rfl
@[simp] theorem State.setAnomalies_ram (s : State) (v : List (Word × Byte)) : (s.setAnomalies v).ram = s.ram := rfl
@[simp] theorem State.setAnomalies_cyc (s : State) (v : List (Word × Byte)) : (s.setAnomalies v).cyc = s.cyc := rfl
@[simp] theorem State.setAnomalies_nmiPending (s : State) (v : List (Word × Byte)) : (s.setAnomalies v).nmiPending = s.nmiPending := rfl
@[simp] theorem State.setAnomalies_anomalies (s : State) (v : List (Word × Byte)) : (s.setAnomalies v).anomalies = v := rfl
@[simp] theorem State.setAnomalies_faulted (s : State) (v : List (Word × Byte)) : (s.setAnomalies v).faulted = s.faulted := rfl
@[simp] theorem State.setAnomalies_irqLine (s : State) (v : List (Word × Byte)) : (s.setAnomalies v).irqLine = s.irqLine := rfl
@[simp] theorem State.setAnomalies_cart (s : State) (v : List (Word × Byte)) : (s.setAnomalies v).cart = s.cart := rfl
@[simp] theorem State.setAnomalies_ppu (s : State) (v : List (Word × Byte)) : (s.setAnomalies v).ppu = s.ppu := rfl
@[simp] theorem State.setAnomalies_draws (s : State) (v : List (Word × Byte)) : (s.setAnomalies v).draws = s.draws := rfl

@[simp] theorem State.setFaulted_a (s : State) (v : Option ProgrammingError) : (s.setFaulted v).a = s.a := rfl
@[simp] theorem State.setFaulted_x (s : State) (v : Option ProgrammingError) : (s.setFaulted v).x = s.x := rfl
@[simp] theorem State.setFaulted_y (s : State) (v : Option ProgrammingError) : (s.setFaulted v).y = s.y := rfl
@[simp] theorem State.setFaulted_sp (s : State) (v : Option ProgrammingError) : (s.setFaulted v).sp = s.sp := rfl
@[simp] theorem State.setFaulted_pc (s : State) (v : Option ProgrammingError) : (s.setFaulted v).pc = s.pc := rfl
@[simp] theorem State.setFaulted_flags (s : State) (v : Option ProgrammingError) : (s.setFaulted v).flags = s.flags := rfl
@[simp] theorem State.setFaulted_ram (s : State) (v : Option ProgrammingError) : (s.setFaulted v).ram = s.ram := rfl
@[simp] theorem State.setFaulted_cyc (s : State) (v : Option ProgrammingError) : (s.setFaulted v).cyc = s.cyc := rfl
@[simp] theorem State.setFaulted_nmiPending (s : State) (v : Option ProgrammingError) : (s.setFaulted v).nmiPending = s.nmiPending := rfl
@[simp] theorem State.setFaulted_anomalies (s : State) (v : Option ProgrammingError) : (s.setFaulted v).anomalies = s.anomalies := rfl
@[simp] theorem State.setFaulted_faulted (s : State) (v : Option ProgrammingError) : (s.setFaulted v).faulted = v := rfl
@[simp] theorem State.setFaulted_irqLine (s : State) (v : Option ProgrammingError) : (s.setFaulted v).irqLine = s.irqLine := rfl
@[simp] theorem State.setFaulted_cart (s : State) (v : Option ProgrammingError) : (s.setFaulted v).cart = s.cart := rfl
@[simp] theorem State.setFaulted_ppu (s : State) (v : Option ProgrammingError) : (s.setFaulted v).ppu = s.ppu := rfl
@[simp] theorem State.setFaulted_draws (s : State) (v : Option ProgrammingError) : (s.setFaulted v).draws = s.draws := rfl

@[simp] theorem State.setIrqLine_a (s : State) (v : Bool) : (s.setIrqLine v).a = s.a := rfl
@[simp] theorem State.setIrqLine_x (s : State) (v : Bool) : (s.setIrqLine v).x = s.x := rfl
@[simp] theorem State.setIrqLine_y (s : State) (v : Bool) : (s.setIrqLine v).y = s.y := rfl
@[simp] theorem State.setIrqLine_sp (s : State) (v : Bool) : (s.setIrqLine v).sp = s.sp := rfl
@[simp] theorem State.setIrqLine_pc (s : State) (v : Bool) : (s.setIrqLine v).pc = s.pc := rfl
@[simp] theorem State.setIrqLine_flags (s : State) (v : Bool) : (s.setIrqLine v).flags = s.flags := rfl
@[simp] theorem State.setIrqLine_ram (s : State) (v : Bool) : (s.setIrqLine v).ram = s.ram := rfl
@[simp] theorem State.setIrqLine_cyc (s : State) (v : Bool) : (s.setIrqLine v).cyc = s.cyc := rfl
@[simp] theorem State.setIrqLine_nmiPending (s : State) (v : Bool) : (s.setIrqLine v).nmiPending = s.nmiPending := rfl
@[simp] theorem State.setIrqLine_anomalies (s : State) (v : Bool) : (s.setIrqLine v).anomalies = s.anomalies := rfl
@[simp] theorem State.setIrqLine_faulted (s : State) (v : Bool) : (s.setIrqLine v).faulted = s.faulted := rfl
@[simp] theorem State.setIrqLine_irqLine (s : State) (v : Bool) : (s.setIrqLine v).irqLine = v := rfl
@[simp] theorem State.setIrqLine_cart (s : State) (v : Bool) : (s.setIrqLine v).cart = s.cart := rfl
@[simp] theorem State.setIrqLine_ppu (s : State) (v : Bool) : (s.setIrqLine v).ppu = s.ppu := rfl
@[simp] theorem State.setIrqLine_draws (s : State) (v : Bool) : (s.setIrqLine v).draws = s.draws := rfl

@[simp] theorem State.setCart_a (s : State) (v : Cartridge) : (s.setCart v).a = s.a := rfl
@[simp] theorem State.setCart_x (s : State) (v : Cartridge) : (s.setCart v).x = s.x := rfl
@[simp] theorem State.setCart_y (s : State) (v : Cartridge) : (s.setCart v).y = s.y := rfl
@[simp] theorem State.setCart_sp (s : State) (v : Cartridge) : (s.setCart v).sp = s.sp := rfl
@[simp] theorem State.setCart_pc (s : State) (v : Cartridge) : (s.setCart v).pc = s.pc := rfl
@[simp] theorem State.setCart_flags (s : State) (v : Cartridge) : (s.setCart v).flags = s.flags := rfl
@[simp] theorem State.setCart_ram (s : State) (v : Cartridge) : (s.setCart v).ram = s.ram := rfl
@[simp] theorem State.setCart_cyc (s : State) (v : Cartridge) : (s.setCart v).cyc = s.cyc := rfl
@[simp] theorem State.setCart_nmiPending (s : State) (v : Cartridge) : (s.setCart v).nmiPending = s.nmiPending := rfl
@[simp] theorem State.setCart_anomalies (s : State) (v : Cartridge) : (s.setCart v).anomalies = s.anomalies := rfl
@[simp] theorem State.setCart_faulted (s : State) (v : Cartridge) : (s.setCart v).faulted = s.faulted := rfl
@[simp] theorem State.setCart_irqLine (s : State) (v : Cartridge) : (s.setCart v).irqLine = s.irqLine := rfl
@[simp] theorem State.setCart_cart (s : State) (v : Cartridge) : (s.setCart v).cart = v := rfl
@[simp] theorem State.setCart_ppu (s : State) (v : Cartridge) : (s.setCart v).ppu = s.ppu := rfl
@[simp] theorem State.setCart_draws (s : State) (v : Cartridge) : (s.setCart v).draws = s.draws := rfl

@[simp] theorem State.setPpu_a (s : State) (v : Ppu) : (s.setPpu v).a = s.a := rfl
@[simp] theorem State.setPpu_x (s : State) (v : Ppu) : (s.setPpu v).x = s.x := rfl
@[simp] theorem State.setPpu_y (s : State) (v : Ppu) : (s.setPpu v).y = s.y := rfl
@[simp] theorem State.setPpu_sp (s : State) (v : Ppu) : (s.setPpu v).sp = s.sp := rfl
@[simp] theorem State.setPpu_pc (s : State) (v : Ppu) : (s.setPpu v).pc = s.pc := rfl
@[simp] theorem State.setPpu_flags (s : State) (v : Ppu) : (s.setPpu v).flags = s.flags := rfl
@[simp] theorem State.setPpu_ram (s : State) (v : Ppu) : (s.setPpu v).ram = s.ram := rfl
@[simp] theorem State.setPpu_cyc (s : State) (v : Ppu) : (s.setPpu v).cyc = s.cyc := rfl
@[simp] theorem State.setPpu_nmiPending (s : State) (v : Ppu) : (s.setPpu v).nmiPending = s.nmiPending := rfl
@[simp] theorem State.setPpu_anomalies (s : State) (v : Ppu) : (s.setPpu v).anomalies = s.anomalies := rfl
@[simp] theorem State.setPpu_faulted (s : State) (v : Ppu) : (s.setPpu v).faulted = s.faulted := rfl
@[simp] theorem State.setPpu_irqLine (s : State) (v : Ppu) : (s.setPpu v).irqLine = s.irqLine := rfl
@[simp] theorem State.setPpu_cart (s : State) (v : Ppu) : (s.setPpu v).cart = s.cart := rfl
@[simp] theorem State.setPpu_ppu (s : State) (v : Ppu) : (s.setPpu v).ppu = v := rfl
@[simp] theorem State.setPpu_draws (s : State) (v : Ppu) : (s.setPpu v).draws = s.draws := rfl

@[simp] theorem State.setDraws_a (s : State) (v : Nat) : (s.setDraws v).a = s.a := rfl
@[simp] theorem State.setDraws_x (s : State) (v : Nat) : (s.setDraws v).x = s.x := rfl
@[simp] theorem State.setDraws_y (s : State) (v : Nat) : (s.setDraws v).y = s.y := rfl
@[simp] theorem State.setDraws_sp (s : State) (v : Nat) : (s.setDraws v).sp = s.sp := rfl
@[simp] theorem State.setDraws_pc (s : State) (v : Nat) : (s.setDraws v).pc = s.pc := rfl
@[simp] theorem State.setDraws_flags (s : State) (v : Nat) : (s.setDraws v).flags = s.flags := rfl
@[simp] theorem State.setDraws_ram (s : State) (v : Nat) : (s.setDraws v).ram = s.ram := rfl
@[simp] theorem State.setDraws_cyc (s : State) (v : Nat) : (s.setDraws v).cyc = s.cyc := rfl
@[simp] theorem State.setDraws_nmiPending (s : State) (v : Nat) : (s.setDraws v).nmiPending = s.nmiPending := rfl
@[simp] theorem State.setDraws_anomalies (s : State) (v : Nat) : (s.setDraws v).anomalies = s.anomalies := rfl
@[simp] theorem State.setDraws_faulted (s : State) (v : Nat) : (s.setDraws v).faulted = s.faulted := rfl
@[simp] theorem State.setDraws_irqLine (s : State) (v : Nat) : (s.setDraws v).irqLine = s.irqLine := rfl
@[simp] theorem State.setDraws_cart (s : State) (v : Nat) : (s.setDraws v).cart = s.cart := rfl
@[simp] theorem State.setDraws_ppu (s : State) (v : Nat) : (s.setDraws v).ppu = s.ppu := rfl
@[simp] theorem State.setDraws_draws (s : State) (v : Nat) : (s.setDraws v).draws = v := rfl

@[simp] theorem State.addCycles_a (s : State) (k : Nat) : (s.addCycles k).a = s.a := rfl
@[simp] theorem State.addCycles_x (s : State) (k : Nat) : (s.addCycles k).x = s.x := rfl
@[simp] theorem State.addCycles_y (s : State) (k : Nat) : (s.addCycles k).y = s.y := rfl
@[simp] theorem State.addCycles_sp (s : State) (k : Nat) : (s.addCycles k).sp = s.sp := rfl
@[simp] theorem State.addCycles_pc (s : State) (k : Nat) : (s.addCycles k).pc = s.pc := rfl
@[simp] theorem State.addCycles_flags (s : State) (k : Nat) : (s.addCycles k).flags = s.flags := rfl
@[simp] theorem State.addCycles_ram (s : State) (k : Nat) : (s.addCycles k).ram = s.ram := rfl
@[simp] theorem State.addCycles_cyc (s : State) (k : Nat) : (s.addCycles k).cyc = s.cyc + k := rfl
@[simp] theorem State.addCycles_nmiPending (s : State) (k : Nat) : (s.addCycles k).nmiPending = s.nmiPending := rfl
@[simp] theorem State.addCycles_anomalies (s : State) (k : Nat) : (s.addCycles k).anomalies = s.anomalies := rfl
@[simp] theorem State.addCycles_faulted (s : State) (k : Nat) : (s.addCycles k).faulted = s.faulted := rfl
@[simp] theorem State.addCycles_irqLine (s : State) (k : Nat) : (s.addCycles k).irqLine = s.irqLine := rfl
@[simp] theorem State.addCycles_cart (s : State) (k : Nat) : (s.addCycles k).cart = s.cart := rfl
@[simp] theorem State.addCycles_ppu (s : State) (k : Nat) : (s.addCycles k).ppu = s.ppu := rfl
@[simp] theorem State.addCycles_draws (s : State) (k : Nat) : (s.addCycles k).draws = s.draws := rfl

@[simp] theorem State.raise_eq (s : State) (addr : Word) :
    s.raise (.mapperOutOfRange addr) = .mapperOutOfRange addr (s.setFaulted (some (.mapperOutOfRange addr))) := rfl

@[simp] theorem State.orRaise_ok (s : State) (b : Byte) : s.orRaise (.ok b) = .ok b := rfl

@[simp] theorem State.orRaise_error (s : State) (e : ProgrammingError) : s.orRaise (.error e) = .error (s.raise e) := rfl

/-- A machine that is faulted already raises its own error as it stands (R24). -/
theorem State.raise_faulted {s : State} {addr : Word} (h : s.faulted = some (.mapperOutOfRange addr)) :
    s.raise (.mapperOutOfRange addr) = .mapperOutOfRange addr s := by
  rw [State.raise_eq, ← h]
  rfl

end Sys2Proof.Machine
end

