-- ==== Sys2Proof/Laws/Ppu.lean ====
section
/-! SUPPORT. What a PPU register access and a PPU tick can do. -/

namespace Sys2Proof.Machine

/-- A read of PRG never leaves the store (R62). -/
theorem Cartridge.prgOffset_lt (c : Cartridge) {addr : Word} (h : 0x8000 ≤ addr.toNat) :
    c.prgOffset addr < c.prgLength := by
  have := addr.isLt
  unfold Cartridge.prgOffset Cartridge.prgLength
  cases c.prgBanks <;> simp <;> omega

/-- A PRG read answers the byte at the mapped offset (R55). -/
theorem Cartridge.readPrg_eq (c : Cartridge) {addr : Word} (h : 0x8000 ≤ addr.toNat) :
    c.readPrg addr = .ok (c.prg.read (c.prgOffset addr)) := by
  simp [Cartridge.readPrg, readStore, c.prgOffset_lt h]

/-- A read in the PPU's address space answers a byte, or faults: below 0x2000 with no CHR there (R62, R80). -/
theorem State.ppuMemoryRead_cases (s : State) (a : BitVec 14) :
    (∃ b, s.ppuMemoryRead a = .ok b) ∨
      (s.ppuMemoryRead a = .error (s.raise (.mapperOutOfRange (a.setWidth 16))) ∧ a.toNat < 0x2000 ∧
        s.cart.chrUnits = 0) := by
  unfold State.ppuMemoryRead Cartridge.readChr readStore chrOffset Cartridge.chrLength
  by_cases h : a.toNat < 0x2000
  · by_cases hc : a.toNat < 8192 * s.cart.chrUnits
    · exact .inl ⟨_, by rw [if_pos h, if_pos hc]; rfl⟩
    · exact .inr ⟨by rw [if_pos h, if_neg hc]; rfl, h, by omega⟩
  · exact .inl ⟨_, if_neg h⟩

/-- What a register access may change in the PPU: everything but the stores the CPU cannot reach that way and the counters.
It holds of every read and every write of the window. -/
structure Ppu.Accessed (p q : Ppu) : Prop where
  oam2 : q.oam2 = p.oam2
  scanline : q.scanline = p.scanline
  dot : q.dot = p.dot
  nmiPrev : q.nmiPrev = p.nmiPrev
  oddFrame : q.oddFrame = p.oddFrame
  raceWindow : q.raceWindow = p.raceWindow
  spriteStatus : q.spriteStatus = p.spriteStatus

theorem Ppu.Accessed.rfl' (p : Ppu) : Ppu.Accessed p p := ⟨rfl, rfl, rfl, rfl, rfl, rfl, rfl⟩

/-- What a register read changes: the PPU's status, write-toggle, suppress, read buffer and v, and the draw index. -/
theorem State.registerRead_frame {s t : State} {r : BitVec 3} {b : Byte} (h : s.registerRead r = .ok (b, t)) :
    t = (s.setPpu { s.ppu with
      status := t.ppu.status, w := t.ppu.w, suppress := t.ppu.suppress, readBuf := t.ppu.readBuf,
      v := t.ppu.v }).setDraws t.draws := by
  unfold State.registerRead at h
  split at h
  · cases h; rfl
  · split at h
    · cases h; rfl
    · split at h
      · unfold State.readPpuData at h
        rcases s.ppuMemoryRead_cases s.ppu.address with ⟨m, hm⟩ | ⟨hm, -⟩
        · rcases s.ppuMemoryRead_cases (s.ppu.address - 0x1000) with ⟨n, hn⟩ | ⟨hn, -⟩ <;>
            simp only [hm, hn, bind, Except.bind, pure, Except.pure] at h <;> split at h <;>
            first | (cases h; rfl) | cases h
        · simp [hm, bind, Except.bind] at h
      · cases h; rfl

/-- The one fault a bus read can raise in `s`: v points below 0x2000, there is no CHR, and the fault names v's address and
leaves `s` with nothing changed but `faulted` (R61, R62). -/
structure State.RaisesAt (s : State) (e : Fault) : Prop where
  noChr : s.cart.chrUnits = 0
  below : s.ppu.address.toNat < 0x2000
  raised : e = s.raise (.mapperOutOfRange (s.ppu.address.setWidth 16))

/-- A register read answers, or it is a PPUDATA read and faults for want of CHR (R62, R76 to R80). -/
theorem State.registerRead_cases (s : State) (r : BitVec 3) :
    (∃ b t, s.registerRead r = .ok (b, t)) ∨ (r = 7 ∧ ∃ e, s.registerRead r = .error e ∧ s.RaisesAt e) := by
  unfold State.registerRead
  split
  · exact .inl ⟨_, _, rfl⟩
  · split
    · exact .inl ⟨_, _, rfl⟩
    · split
      · unfold State.readPpuData
        rcases s.ppuMemoryRead_cases s.ppu.address with ⟨m, hm⟩ | ⟨hm, ha, hc⟩
        · rcases s.ppuMemoryRead_cases (s.ppu.address - 0x1000) with ⟨n, hn⟩ | ⟨hn, ha, hc⟩ <;>
            simp only [hm, hn, bind, Except.bind, pure, Except.pure] <;> split
          · exact .inl ⟨_, _, rfl⟩
          · exact .inl ⟨_, _, rfl⟩
          · exact .inl ⟨_, _, rfl⟩
          · next h7 h =>
            rw [BitVec.toNat_sub, show (0x1000 : BitVec 14).toNat = 0x1000 from rfl] at ha
            have := s.ppu.address.isLt
            omega
        · exact .inr ⟨‹_›, _, by simp only [hm, bind, Except.bind], ⟨hc, ha, rfl⟩⟩
      · exact .inl ⟨_, _, rfl⟩

/-- Storing VRAM bytes keeps VRAM canonical and within its 2048 bytes. -/
theorem storeVram_keeps {m : Memory} (stores : List (BitVec 11 × Byte)) (h : m.wf = true ∧ m.below 2048 = true) :
    (storeVram m stores).wf = true ∧ (storeVram m stores).below 2048 = true := by
  unfold storeVram
  induction stores generalizing m with
  | nil => exact h
  | cons e l ih => exact ih ⟨Memory.write_wf h.1 _ _, Memory.write_below h.2 e.1.isLt _⟩

/-- A VRAM byte that no store names reads as before. -/
theorem storeVram_read_ne {m : Memory} {stores : List (BitVec 11 × Byte)} {k : Nat} (h : ∀ e ∈ stores, e.1.toNat ≠ k) :
    (storeVram m stores).read k = m.read k := by
  unfold storeVram
  induction stores generalizing m with
  | nil => rfl
  | cons e l ih =>
    rw [List.foldl_cons, ih fun e he => h e (List.mem_cons_of_mem _ he)]
    exact Memory.read_write_ne _ _ (h e List.mem_cons_self).symm

/-- The PPU's byte stores are canonical and within bounds, and its counters in range (R27). -/
structure Ppu.Kept (p : Ppu) : Prop where
  oam : p.oam.wf = true ∧ p.oam.below 256 = true
  oam2 : p.oam2.wf = true ∧ p.oam2.below 32 = true
  vram : p.vram.wf = true ∧ p.vram.below 2048 = true
  scanline : p.scanline ≤ 261
  dot : p.dot ≤ 340

/-- A register write is nothing, or one of the seven writes (R75, R81 to R88): what holds of each holds of it. -/
theorem Ppu.registerWrite_cases {P : Ppu → Prop} (p : Ppu) (r : BitVec 3) (d : Byte) (cyc : Nat) (same : P p)
    (oamAddr : P (p.writeOamAddr d)) (oamData : P (p.writeOamData d)) (data : P (p.writeData d))
    (ctrl : P (p.writeCtrl d)) (mask : P (p.writeMask d)) (scroll : P (p.writeScroll d)) (addr : P (p.writeAddr d)) :
    P (p.registerWrite r d cyc) := by
  unfold Ppu.registerWrite
  (repeat' split) <;> assumption

theorem Ppu.memoryWrite_accessed (p : Ppu) (a : BitVec 14) (d : Byte) : Ppu.Accessed p (p.memoryWrite a d) := by
  unfold Ppu.memoryWrite
  split <;> constructor <;> rfl

theorem Ppu.registerWrite_accessed (p : Ppu) (r : BitVec 3) (d : Byte) (cyc : Nat) :
    Ppu.Accessed p (p.registerWrite r d cyc) := by
  apply Ppu.registerWrite_cases (P := Ppu.Accessed p)
  · exact Ppu.Accessed.rfl' p
  · constructor <;> rfl
  · unfold Ppu.writeOamData; split <;> constructor <;> rfl
  · obtain ⟨h1, h2, h3, h4, h5, h6, h7⟩ := p.memoryWrite_accessed p.address d
    exact ⟨h1, h2, h3, h4, h5, h6, h7⟩
  · constructor <;> rfl
  · constructor <;> rfl
  · unfold Ppu.writeScroll; split <;> constructor <;> rfl
  · unfold Ppu.writeAddr; split <;> constructor <;> rfl

theorem Ppu.memoryWrite_vram {p : Ppu} (h : p.vram.wf = true ∧ p.vram.below 2048 = true) (a : BitVec 14) (d : Byte) :
    (p.memoryWrite a d).vram.wf = true ∧ (p.memoryWrite a d).vram.below 2048 = true := by
  unfold Ppu.memoryWrite
  split
  · exact h
  · exact storeVram_keeps _ h

theorem Ppu.memoryWrite_oam (p : Ppu) (a : BitVec 14) (d : Byte) : (p.memoryWrite a d).oam = p.oam := by
  unfold Ppu.memoryWrite
  split <;> rfl

/-- A register write keeps the PPU's stores canonical and its counters in range. -/
theorem Ppu.registerWrite_keeps {p : Ppu} (h : p.Kept) (r : BitVec 3) (d : Byte) (cyc : Nat) :
    (p.registerWrite r d cyc).Kept := by
  have ha := p.registerWrite_accessed r d cyc
  refine ⟨?_, ha.oam2 ▸ h.oam2, ?_, ha.scanline ▸ h.scanline, ha.dot ▸ h.dot⟩
  · apply Ppu.registerWrite_cases (P := fun q => q.oam.wf = true ∧ q.oam.below 256 = true)
    · exact h.oam
    · exact h.oam
    · unfold Ppu.writeOamData
      split
      · exact h.oam
      · exact ⟨Memory.write_wf h.oam.1 _ _, Memory.write_below h.oam.2 p.oamAddr.isLt _⟩
    · have e : (p.writeData d).oam = p.oam := p.memoryWrite_oam p.address d
      exact e ▸ h.oam
    · exact h.oam
    · exact h.oam
    · unfold Ppu.writeScroll; split <;> exact h.oam
    · unfold Ppu.writeAddr; split <;> exact h.oam
  · apply Ppu.registerWrite_cases (P := fun q => q.vram.wf = true ∧ q.vram.below 2048 = true)
    · exact h.vram
    · exact h.vram
    · unfold Ppu.writeOamData; split <;> exact h.vram
    · exact Ppu.memoryWrite_vram h.vram p.address d
    · exact h.vram
    · exact h.vram
    · unfold Ppu.writeScroll; split <;> exact h.vram
    · unfold Ppu.writeAddr; split <;> exact h.vram

/-- What a tick may change: the status, the counters, parity, suppress, nmi_prev and the sprite schedule. -/
structure Ppu.Ticked (p q : Ppu) : Prop where
  ctrl : q.ctrl = p.ctrl
  mask : q.mask = p.mask
  oam : q.oam = p.oam
  oam2 : q.oam2 = p.oam2
  oamAddr : q.oamAddr = p.oamAddr
  vram : q.vram = p.vram
  readBuf : q.readBuf = p.readBuf
  w : q.w = p.w
  v : q.v = p.v
  t : q.t = p.t
  fineX : q.fineX = p.fineX
  raceWindow : q.raceWindow = p.raceWindow
  memStores : q.memStores = p.memStores

theorem Ppu.Ticked.rfl' (p : Ppu) : Ppu.Ticked p p := by constructor <;> rfl

theorem Ppu.Ticked.trans {p q r : Ppu} (h : Ppu.Ticked p q) (k : Ppu.Ticked q r) : Ppu.Ticked p r := by
  obtain ⟨h1, h2, h3, h4, h5, h6, h7, h8, h9, h10, h11, h12, h13⟩ := h
  obtain ⟨k1, k2, k3, k4, k5, k6, k7, k8, k9, k10, k11, k12, k13⟩ := k
  constructor <;> simp [*]

theorem Ppu.nextLine_ticked (p : Ppu) (dot : Nat) : Ppu.Ticked p (p.nextLine dot) := by
  unfold Ppu.nextLine
  split
  · constructor <;> rfl
  · constructor <;> rfl

theorem Ppu.moveDot_ticked (p : Ppu) : Ppu.Ticked p p.moveDot := by
  unfold Ppu.moveDot
  split
  · exact p.nextLine_ticked 0
  · split
    · exact p.nextLine_ticked _
    · constructor <;> rfl

theorem Ppu.positionEvents_ticked (p : Ppu) : Ppu.Ticked p p.positionEvents := by
  unfold Ppu.positionEvents
  split
  · split
    · constructor <;> rfl
    · constructor <;> rfl
  · split
    · constructor <;> rfl
    · exact Ppu.Ticked.rfl' p

theorem Ppu.stepDot_ticked (p : Ppu) : Ppu.Ticked p p.stepDot := p.moveDot_ticked.trans p.moveDot.positionEvents_ticked

theorem Ppu.evalNmi_ticked (p : Ppu) : Ppu.Ticked p p.evalNmi.1 := by constructor <;> rfl

theorem Ppu.runDots_ticked (k : Nat) (p : Ppu) (e : Bool) : Ppu.Ticked p (Ppu.runDots k p e).1 := by
  induction k generalizing p e with
  | zero => exact Ppu.Ticked.rfl' p
  | succ k ih => exact (p.stepDot_ticked.trans p.stepDot.evalNmi_ticked).trans (ih _ _)

/-- Dots run one after another (R318). -/
theorem Ppu.runDots_add (j k : Nat) (p : Ppu) (e : Bool) :
    Ppu.runDots (j + k) p e = Ppu.runDots k (Ppu.runDots j p e).1 (Ppu.runDots j p e).2 := by
  induction j generalizing p e with
  | zero => rw [Nat.zero_add]; rfl
  | succ j ih => rw [Nat.succ_add]; exact ih _ _

theorem Ppu.takeSpriteStatus_ticked (p : Ppu) : Ppu.Ticked p p.takeSpriteStatus := by
  unfold Ppu.takeSpriteStatus
  split
  · exact Ppu.Ticked.rfl' p
  · constructor <;> rfl

/-- What a tick leaves (R318 to R324). -/
theorem Ppu.tick_ticked (p : Ppu) (n : Nat) : Ppu.Ticked p (p.tick n).1 :=
  (p.takeSpriteStatus_ticked.trans p.takeSpriteStatus.evalNmi_ticked).trans (Ppu.runDots_ticked _ _ _)

/-- The position events leave the counters where they are. -/
theorem Ppu.positionEvents_counters (p : Ppu) :
    p.positionEvents.scanline = p.scanline ∧ p.positionEvents.dot = p.dot ∧ p.positionEvents.oddFrame = p.oddFrame := by
  unfold Ppu.positionEvents
  refine ⟨?_, ?_, ?_⟩ <;> (repeat' split) <;> rfl

/-- A dot keeps the counters in range (R320). -/
theorem Ppu.stepDot_range {p : Ppu} (hs : p.scanline ≤ 261) (hd : p.dot ≤ 340) :
    p.stepDot.scanline ≤ 261 ∧ p.stepDot.dot ≤ 340 := by
  unfold Ppu.stepDot
  rw [(Ppu.positionEvents_counters _).1, (Ppu.positionEvents_counters _).2.1]
  unfold Ppu.moveDot Ppu.nextLine
  (repeat' split) <;> simp <;> omega

theorem Ppu.runDots_range (k : Nat) {p : Ppu} (e : Bool) (hs : p.scanline ≤ 261) (hd : p.dot ≤ 340) :
    (Ppu.runDots k p e).1.scanline ≤ 261 ∧ (Ppu.runDots k p e).1.dot ≤ 340 := by
  induction k generalizing p e with
  | zero => exact ⟨hs, hd⟩
  | succ k ih => exact ih _ (Ppu.stepDot_range hs hd).1 (Ppu.stepDot_range hs hd).2

theorem Ppu.takeSpriteStatus_counters (p : Ppu) :
    p.takeSpriteStatus.scanline = p.scanline ∧ p.takeSpriteStatus.dot = p.dot := by
  unfold Ppu.takeSpriteStatus
  split <;> exact ⟨rfl, rfl⟩

/-- A tick keeps the PPU's stores canonical and its counters in range. -/
theorem Ppu.tick_keeps {p : Ppu} (h : p.Kept) (n : Nat) : (p.tick n).1.Kept := by
  have ht := p.tick_ticked n
  have hc := p.takeSpriteStatus_counters
  have hr := Ppu.runDots_range (3 * n) (p := p.takeSpriteStatus.evalNmi.1) p.takeSpriteStatus.evalNmi.2
    (hc.1 ▸ h.scanline : p.takeSpriteStatus.scanline ≤ 261) (hc.2 ▸ h.dot : p.takeSpriteStatus.dot ≤ 340)
  exact ⟨ht.oam ▸ h.oam, ht.oam2 ▸ h.oam2, ht.vram ▸ h.vram, hr.1, hr.2⟩

end Sys2Proof.Machine
end

