-- ==== Sys2Proof/Laws/Bus.lean ====
section
/-! SUPPORT. What each shared operation over the bus, the stack, the interrupts and the operands can do, said once. -/

namespace Sys2Proof.Machine

/-! ## Bus reads, region by region -/

theorem State.busRead_ram (s : State) {addr : Word} (h : addr.toNat < 0x2000) :
    s.busRead addr = .ok (s.ramRead addr, s) := by
  simp [State.busRead, h]

theorem State.busRead_ppu (s : State) {addr : Word} (h : 0x2000 ≤ addr.toNat) (k : addr.toNat < 0x4000) :
    s.busRead addr = s.registerRead (ppuRegister addr) := by
  simp [State.busRead, show ¬ addr.toNat < 8192 by omega, k]

theorem State.busRead_stub (s : State) {addr : Word} (h : 0x4000 ≤ addr.toNat) (k : addr.toNat < 0x4020) :
    s.busRead addr = .ok (0, s) := by
  simp [State.busRead, show ¬ addr.toNat < 8192 by omega, show ¬ addr.toNat < 16384 by omega, k]

theorem State.busRead_cartLow (s : State) {addr : Word} (h : 0x4020 ≤ addr.toNat) (k : addr.toNat < 0x8000) :
    s.busRead addr = .ok s.drawCartLow := by
  simp [State.busRead, show ¬ addr.toNat < 8192 by omega, show ¬ addr.toNat < 16384 by omega,
    show ¬ addr.toNat < 16416 by omega, k]

theorem State.busRead_prg (s : State) {addr : Word} (h : 0x8000 ≤ addr.toNat) :
    s.busRead addr = .ok (s.cart.prg.read (s.cart.prgOffset addr), s) := by
  simp [State.busRead, show ¬ addr.toNat < 8192 by omega, show ¬ addr.toNat < 16384 by omega,
    show ¬ addr.toNat < 16416 by omega, show ¬ addr.toNat < 32768 by omega, s.cart.readPrg_eq h, bind, Except.bind, pure,
    Except.pure]

/-- A bus read answers what `peek` gives, with nothing changed, wherever `peek` gives a byte. -/
theorem State.busRead_of_peek {s : State} {addr : Word} {b : Byte} (h : s.peek addr = some b) :
    s.busRead addr = .ok (b, s) := by
  unfold State.peek at h
  split at h
  · cases h; exact s.busRead_ram ‹_›
  · split at h
    · cases h
    · split at h
      · cases h; exact s.busRead_stub (by omega) ‹_›
      · split at h
        · cases h
        · cases h; exact s.busRead_prg (by omega)

/-- What a bus read changes: PPU status, write-toggle, suppress, read buffer and v, and the draw index (R65). -/
theorem State.busRead_frame {s t : State} {addr : Word} {b : Byte} (h : s.busRead addr = .ok (b, t)) :
    t = (s.setPpu { s.ppu with
      status := t.ppu.status, w := t.ppu.w, suppress := t.ppu.suppress, readBuf := t.ppu.readBuf,
      v := t.ppu.v }).setDraws t.draws := by
  by_cases h1 : addr.toNat < 0x2000
  · rw [s.busRead_ram h1] at h; cases h; rfl
  by_cases h2 : addr.toNat < 0x4000
  · rw [s.busRead_ppu (by omega) h2] at h; exact State.registerRead_frame h
  by_cases h3 : addr.toNat < 0x4020
  · rw [s.busRead_stub (by omega) h3] at h; cases h; rfl
  by_cases h4 : addr.toNat < 0x8000
  · rw [s.busRead_cartLow (by omega) h4] at h; cases h; rfl
  · rw [s.busRead_prg (by omega)] at h; cases h; rfl

/-- Outside the register window a bus read leaves the PPU alone. -/
theorem State.busRead_ppu_eq {s t : State} {addr : Word} {b : Byte} (h : s.busRead addr = .ok (b, t))
    (k : ¬ (0x2000 ≤ addr.toNat ∧ addr.toNat < 0x4000)) : t.ppu = s.ppu := by
  by_cases h1 : addr.toNat < 0x2000
  · rw [s.busRead_ram h1] at h; cases h; rfl
  by_cases h3 : addr.toNat < 0x4020
  · rw [s.busRead_stub (by omega) h3] at h; cases h; rfl
  by_cases h4 : addr.toNat < 0x8000
  · rw [s.busRead_cartLow (by omega) h4] at h; cases h; rfl
  · rw [s.busRead_prg (by omega)] at h; cases h; rfl

theorem ppuRegister_toNat (addr : Word) : (ppuRegister addr).toNat = addr.toNat % 8 := by
  simp [ppuRegister]

/-- A bus read answers, or it reads PPUDATA and faults for want of CHR (R62). -/
theorem State.busRead_cases (s : State) (addr : Word) :
    (∃ b t, s.busRead addr = .ok (b, t)) ∨ ∃ e, s.busRead addr = .error e ∧ s.RaisesAt e ∧ isPpuData addr := by
  by_cases h1 : addr.toNat < 0x2000
  · exact .inl ⟨_, _, s.busRead_ram h1⟩
  by_cases h2 : addr.toNat < 0x4000
  · rw [s.busRead_ppu (by omega) h2]
    rcases s.registerRead_cases (ppuRegister addr) with h | ⟨h7, e, he, hr⟩
    · exact .inl h
    · exact .inr ⟨e, he, hr, ⟨by omega, h2⟩, by rw [← ppuRegister_toNat, h7]; rfl⟩
  by_cases h3 : addr.toNat < 0x4020
  · exact .inl ⟨_, _, s.busRead_stub (by omega) h3⟩
  by_cases h4 : addr.toNat < 0x8000
  · exact .inl ⟨_, _, s.busRead_cartLow (by omega) h4⟩
  · exact .inl ⟨_, _, s.busRead_prg (by omega)⟩

/-! ## Bus writes -/

/-- A bus write stores a RAM byte, writes a PPU register, or does nothing (R50). -/
theorem State.busWrite_cases (s : State) (addr : Word) (v : Byte) :
    (addr.toNat < 0x2000 ∧ s.busWrite addr v = s.setRam (s.ram.write (addr.toNat % 0x0800) v)) ∨
    (0x2000 ≤ addr.toNat ∧ addr.toNat < 0x4000 ∧
      s.busWrite addr v = s.setPpu (s.ppu.registerWrite (ppuRegister addr) v s.cyc)) ∨
    (0x4000 ≤ addr.toNat ∧ s.busWrite addr v = s) := by
  unfold State.busWrite
  by_cases h1 : addr.toNat < 0x2000
  · exact .inl ⟨h1, by simp [h1, State.ramWrite]⟩
  by_cases h2 : addr.toNat < 0x4000
  · exact .inr (.inl ⟨by omega, h2, by simp [h1, h2]⟩)
  · refine .inr (.inr ⟨by omega, ?_⟩)
    rw [if_neg h1, if_neg h2]
    split <;> rfl

/-- What a bus write changes: RAM and the PPU. -/
theorem State.busWrite_frame (s : State) (addr : Word) (v : Byte) :
    s.busWrite addr v = (s.setRam (s.busWrite addr v).ram).setPpu (s.busWrite addr v).ppu := by
  rcases s.busWrite_cases addr v with ⟨-, h⟩ | ⟨-, -, h⟩ | ⟨-, h⟩ <;> rw [h] <;> rfl

@[simp] theorem State.busWrite_a (s : State) (addr : Word) (v : Byte) : (s.busWrite addr v).a = s.a := by
  rw [s.busWrite_frame]; rfl
@[simp] theorem State.busWrite_x (s : State) (addr : Word) (v : Byte) : (s.busWrite addr v).x = s.x := by
  rw [s.busWrite_frame]; rfl
@[simp] theorem State.busWrite_y (s : State) (addr : Word) (v : Byte) : (s.busWrite addr v).y = s.y := by
  rw [s.busWrite_frame]; rfl
@[simp] theorem State.busWrite_sp (s : State) (addr : Word) (v : Byte) : (s.busWrite addr v).sp = s.sp := by
  rw [s.busWrite_frame]; rfl
@[simp] theorem State.busWrite_pc (s : State) (addr : Word) (v : Byte) : (s.busWrite addr v).pc = s.pc := by
  rw [s.busWrite_frame]; rfl
@[simp] theorem State.busWrite_flags (s : State) (addr : Word) (v : Byte) : (s.busWrite addr v).flags = s.flags := by
  rw [s.busWrite_frame]; rfl
@[simp] theorem State.busWrite_cyc (s : State) (addr : Word) (v : Byte) : (s.busWrite addr v).cyc = s.cyc := by
  rw [s.busWrite_frame]; rfl
@[simp] theorem State.busWrite_nmiPending (s : State) (addr : Word) (v : Byte) : (s.busWrite addr v).nmiPending = s.nmiPending := by
  rw [s.busWrite_frame]; rfl
@[simp] theorem State.busWrite_anomalies (s : State) (addr : Word) (v : Byte) : (s.busWrite addr v).anomalies = s.anomalies := by
  rw [s.busWrite_frame]; rfl
@[simp] theorem State.busWrite_faulted (s : State) (addr : Word) (v : Byte) : (s.busWrite addr v).faulted = s.faulted := by
  rw [s.busWrite_frame]; rfl
@[simp] theorem State.busWrite_irqLine (s : State) (addr : Word) (v : Byte) : (s.busWrite addr v).irqLine = s.irqLine := by
  rw [s.busWrite_frame]; rfl
@[simp] theorem State.busWrite_cart (s : State) (addr : Word) (v : Byte) : (s.busWrite addr v).cart = s.cart := by
  rw [s.busWrite_frame]; rfl
@[simp] theorem State.busWrite_draws (s : State) (addr : Word) (v : Byte) : (s.busWrite addr v).draws = s.draws := by
  rw [s.busWrite_frame]; rfl

/-- A bus write leaves the RAM bytes it does not name. -/
theorem State.busWrite_ram_ne (s : State) {addr b : Word} (v : Byte)
    (h : ¬ (addr.toNat < 0x2000 ∧ addr.toNat % 0x0800 = b.toNat % 0x0800)) :
    (s.busWrite addr v).ramRead b = s.ramRead b := by
  rcases s.busWrite_cases addr v with ⟨ha, e⟩ | ⟨-, -, e⟩ | ⟨-, e⟩ <;> rw [e]
  · exact Memory.read_write_ne _ _ fun hb => h ⟨ha, hb.symm⟩
  · rfl

/-! ## The stack -/

theorem stackAddr_toNat (sp : Byte) : (stackAddr sp).toNat = 0x100 + sp.toNat := by
  have := sp.isLt
  simp only [stackAddr, zext16, BitVec.toNat_add, BitVec.toNat_setWidth]
  simp
  omega

/-- A push stores one byte of page 1 and moves SP down (R210). -/
theorem State.push_eq (s : State) (b : Byte) :
    s.push b = (s.setRam (s.ram.write (0x100 + s.sp.toNat) b)).setSp (s.sp - 1) := by
  have h := stackAddr_toNat s.sp
  have hs := s.sp.isLt
  rcases s.busWrite_cases (stackAddr s.sp) b with ⟨-, e⟩ | ⟨k, -⟩ | ⟨k, -⟩
  · rw [State.push, e, h, Nat.mod_eq_of_lt (by omega)]
  · omega
  · omega

/-- A pull moves SP up and loads one byte of page 1; it always answers (R210). -/
theorem State.pull_eq (s : State) :
    s.pull = .ok (s.ram.read (0x100 + (s.sp + 1).toNat), s.setSp (s.sp + 1)) := by
  have h := stackAddr_toNat (s.sp + 1)
  have hs := (s.sp + 1).isLt
  rw [State.pull, State.busRead_ram _ (by omega), State.ramRead, h, Nat.mod_eq_of_lt (by omega)]
  rfl

theorem State.pullWord_eq (s : State) :
    s.pullWord = .ok (wordOf (s.ram.read (0x100 + (s.sp + 2).toNat)) (s.ram.read (0x100 + (s.sp + 1).toNat)),
      s.setSp (s.sp + 2)) := by
  simp only [State.pullWord, State.pull_eq, bind, Except.bind, pure, Except.pure, State.setSp_sp, State.setSp_ram]
  rw [BitVec.add_assoc]
  rfl

theorem State.pushWord_eq (s : State) (w : Word) :
    s.pushWord w = (s.setRam ((s.ram.write (0x100 + s.sp.toNat) (hiByte w)).write (0x100 + (s.sp - 1).toNat)
      (loByte w))).setSp (s.sp - 2) := by
  simp only [State.pushWord, State.push_eq, State.setSp_sp, State.setSp_ram, State.setRam_ram]
  rw [BitVec.sub_sub]
  rfl

/-! ## Interrupts -/

/-- Two bus reads make a word, or one of them faults (R11, R63). -/
theorem State.readWordAt_cases (s : State) (lo hi : Word) :
    (∃ l sm h s1, s.busRead lo = .ok (l, sm) ∧ sm.busRead hi = .ok (h, s1) ∧ s.readWordAt lo hi = .ok (wordOf h l, s1)) ∨
    ∃ e, s.readWordAt lo hi = .error e ∧
      (s.busRead lo = .error e ∨ ∃ l sm, s.busRead lo = .ok (l, sm) ∧ sm.busRead hi = .error e) := by
  unfold State.readWordAt
  rcases h1 : s.busRead lo with e | ⟨l, sm⟩
  · exact .inr ⟨e, by simp only [bind, Except.bind], .inl rfl⟩
  rcases h2 : sm.busRead hi with e | ⟨h, s1⟩
  · exact .inr ⟨e, by simp only [h2, bind, Except.bind], .inr ⟨l, sm, rfl, h2⟩⟩
  · exact .inl ⟨l, sm, h, s1, rfl, h2, by simp only [h2, bind, Except.bind, pure, Except.pure]⟩

theorem State.readWordAt_ok {s sm s1 : State} {lo hi : Word} {l h : Byte} (h1 : s.busRead lo = .ok (l, sm))
    (h2 : sm.busRead hi = .ok (h, s1)) : s.readWordAt lo hi = .ok (wordOf h l, s1) := by
  simp [State.readWordAt, h1, h2, bind, Except.bind, pure, Except.pure]

/-- A vector's word is PRG's, read with no side effect (R66). -/
theorem State.read16_vector (s : State) {vector : Word} (h : 0x8000 ≤ vector.toNat) (k : 0x8000 ≤ (vector + 1).toNat) :
    s.read16 vector = .ok (wordOf (s.cart.prg.read (s.cart.prgOffset (vector + 1)))
      (s.cart.prg.read (s.cart.prgOffset vector)), s) :=
  State.readWordAt_ok (s.busRead_prg h) (s.busRead_prg k)

/-- Taking an interrupt always answers, by the vectors 0xFFFA and 0xFFFE (R305). -/
theorem State.enterInterrupt_eq (s : State) (ret : Word) (b : Bool) {vector : Word} (h : 0x8000 ≤ vector.toNat)
    (k : 0x8000 ≤ (vector + 1).toNat) :
    s.enterInterrupt ret b vector = .ok
      ((((s.setRam (((s.ram.write (0x100 + s.sp.toNat) (hiByte ret)).write (0x100 + (s.sp - 1).toNat) (loByte ret)).write
        (0x100 + (s.sp - 2).toNat) (s.flags.pack b))).setSp (s.sp - 3)).setFlags { s.flags with i := true }).setPc
        (wordOf (s.cart.prg.read (s.cart.prgOffset (vector + 1))) (s.cart.prg.read (s.cart.prgOffset vector)))) := by
  simp only [State.enterInterrupt, State.push_eq, State.pushWord_eq, bind, Except.bind]
  rw [State.read16_vector _ h k]
  simp only [pure, Except.pure, State.setSp_sp, State.setSp_ram, State.setRam_ram, State.setSp_flags, State.setRam_flags,
    State.setFlags_cart, State.setSp_cart, State.setRam_cart]
  rw [BitVec.sub_sub]
  rfl

/-- Returning from an interrupt always answers (R219). -/
theorem State.returnFromInterrupt_eq (s : State) :
    s.returnFromInterrupt = .ok
      (((s.setSp (s.sp + 3)).setFlags (Flags.unpack (s.ram.read (0x100 + (s.sp + 1).toNat)))).setPc
        (wordOf (s.ram.read (0x100 + (s.sp + 3).toNat)) (s.ram.read (0x100 + (s.sp + 2).toNat)))) := by
  simp only [State.returnFromInterrupt, State.pull_eq, State.pullWord_eq, bind, Except.bind, pure, Except.pure,
    State.setFlags_sp, State.setFlags_ram, State.setSp_sp, State.setSp_ram, BitVec.add_assoc]
  rfl

/-! ## Operands -/

/-- The pointer of a zero-page indirect mode is RAM's, read with no side effect (R144, R145). -/
theorem State.readPointer_eq (s : State) (p : Byte) :
    s.readPointer p = .ok (wordOf (s.ram.read (p + 1).toNat) (s.ram.read p.toNat), s) := by
  have h1 := p.isLt
  have h2 := (p + 1).isLt
  simp only [State.readPointer, State.readWordAt, bind, Except.bind, pure, Except.pure]
  rw [s.busRead_ram (by rw [zext16_toNat]; omega)]
  simp only
  rw [s.busRead_ram (by rw [zext16_toNat]; omega)]
  simp only [State.ramRead, zext16_toNat, Nat.mod_eq_of_lt (show p.toNat < 0x800 by omega),
    Nat.mod_eq_of_lt (show (p + 1).toNat < 0x800 by omega)]

/-- Resolving a mode always answers and changes nothing (R140 to R146). -/
theorem State.resolve_ok (s : State) (mode : MemMode) : ∃ t, s.resolve mode = .ok (t, s) := by
  cases mode <;> simp [State.resolve, State.readPointer_eq, bind, Except.bind, pure, Except.pure]

theorem State.resolve_state {s s1 : State} {mode : MemMode} {t : Target} (h : s.resolve mode = .ok (t, s1)) : s1 = s := by
  obtain ⟨t', h'⟩ := s.resolve_ok mode
  rw [h'] at h
  cases h
  rfl

/-- An operand is one bus read at the address its mode resolves. -/
theorem State.loadOperand_iff {s : State} {mode : MemMode} {m : Byte} {crossed : Bool} {s2 : State} :
    s.loadOperand mode = .ok (m, crossed, s2) ↔
      ∃ t, s.resolve mode = .ok (t, s) ∧ s.busRead t.ea = .ok (m, s2) ∧ t.crossed = crossed := by
  obtain ⟨t, ht⟩ := s.resolve_ok mode
  constructor
  · intro h
    rcases hb : s.busRead t.ea with e | ⟨m', s'⟩
    · simp [State.loadOperand, ht, hb, bind, Except.bind] at h
    · simp only [State.loadOperand, ht, hb, bind, Except.bind, pure, Except.pure, Except.ok.injEq, Prod.mk.injEq] at h
      exact ⟨t, ht, by rw [hb, h.1, h.2.2], h.2.1⟩
  · rintro ⟨t', ht', hb, hc⟩
    rw [ht] at ht'
    cases ht'
    simp [State.loadOperand, ht, hb, bind, Except.bind, pure, Except.pure, hc]

/-! ## Outcomes -/

/-- `complete` answers a next state exactly when the effect answered, with its cycles added (R130). -/
theorem complete_next {r : Except Fault (State × Nat)} {t : State} :
    complete r = .next t ↔ ∃ s k, r = .ok (s, k) ∧ t = s.addCycles k := by
  constructor
  · intro h
    rcases r with e | ⟨s, k⟩
    · cases h
    · cases h; exact ⟨s, k, rfl, rfl⟩
  · rintro ⟨s, k, rfl, rfl⟩
    rfl

/-- `complete` faults exactly when the effect failed at a bus read. -/
theorem complete_fault {r : Except Fault (State × Nat)} {e : Fault} : complete r = .fault e ↔ r = .error e := by
  rcases r with e' | ⟨s, k⟩ <;> simp [complete]

/-- No effect is refused. -/
theorem complete_not_refused (r : Except Fault (State × Nat)) (e : Refusal) : complete r ≠ .refused e := by
  rcases r with e' | ⟨s, k⟩ <;> simp [complete]

@[simp] theorem finish_eq (s : State) (k : Nat) : finish s k = .next (s.addCycles k) := rfl

@[simp] theorem finishRead_ok (s : State) (k : Nat) : finishRead (.ok s) k = .next (s.addCycles k) := rfl

@[simp] theorem finishRead_error (e : Fault) (k : Nat) : finishRead (.error e) k = .fault e := rfl

/-- The read class with its operand read (R133, R135). -/
theorem readOp_ok {mode : MemMode} {base : Nat} {extra : Extra} {f : Byte → State → State} {s s1 : State} {m : Byte}
    {crossed : Bool} (h : s.loadOperand mode = .ok (m, crossed, s1)) :
    readOp mode base extra f s = .next ((f m s1).addCycles (base + extra.cycles crossed)) := by
  simp [readOp, h, bind, Except.bind, pure, Except.pure, complete]

/-- The read class with its operand read failing (R62). -/
theorem readOp_error {mode : MemMode} {base : Nat} {extra : Extra} {f : Byte → State → State} {s : State} {e : Fault}
    (h : s.loadOperand mode = .error e) : readOp mode base extra f s = .fault e := by
  simp [readOp, h, bind, Except.bind, complete]

/-- All a read-class instruction can do: its effect of the operand, or the fault of its one operand read. -/
theorem readOp_cases (mode : MemMode) (base : Nat) (extra : Extra) (f : Byte → State → State) (s : State) :
    ∃ t, s.resolve mode = .ok (t, s) ∧
      ((∃ m s1, s.busRead t.ea = .ok (m, s1) ∧
        readOp mode base extra f s = .next ((f m s1).addCycles (base + extra.cycles t.crossed))) ∨
      ∃ e, s.busRead t.ea = .error e ∧ readOp mode base extra f s = .fault e) := by
  obtain ⟨t, ht⟩ := s.resolve_ok mode
  refine ⟨t, ht, ?_⟩
  rcases hb : s.busRead t.ea with e | ⟨m, s1⟩
  · exact .inr ⟨e, rfl, by simp [readOp, State.loadOperand, ht, hb, bind, Except.bind, complete]⟩
  · exact .inl ⟨m, s1, rfl, readOp_ok (State.loadOperand_iff.2 ⟨t, ht, hb, rfl⟩)⟩

/-- All a store can do: one bus write at the resolved address; it never stops (R133). -/
theorem storeOp_eq (mode : MemMode) (base : Nat) (reg : State → Byte) (s : State) :
    ∃ t, s.resolve mode = .ok (t, s) ∧
      storeOp mode base reg s = .next ((s.busWrite t.ea (reg s)).addCycles base) := by
  obtain ⟨t, ht⟩ := s.resolve_ok mode
  exact ⟨t, ht, by simp [storeOp, ht, bind, Except.bind, pure, Except.pure, complete]⟩

/-- All a read-modify-write can do: one read and one write at the resolved address, or the fault of the read (R180). -/
theorem rmwOp_cases (mode : MemMode) (base : Nat) (f : Byte → Flags → Byte × Flags) (s : State) :
    ∃ t, s.resolve mode = .ok (t, s) ∧
      ((∃ m s1, s.busRead t.ea = .ok (m, s1) ∧ rmwOp mode base f s =
        .next (((s1.busWrite t.ea (f m s1.flags).1).setFlags (f m s1.flags).2).addCycles base)) ∨
      ∃ e, s.busRead t.ea = .error e ∧ rmwOp mode base f s = .fault e) := by
  obtain ⟨t, ht⟩ := s.resolve_ok mode
  refine ⟨t, ht, ?_⟩
  rcases hb : s.busRead t.ea with e | ⟨m, s1⟩
  · exact .inr ⟨e, rfl, by simp [rmwOp, ht, hb, bind, Except.bind, complete]⟩
  · exact .inl ⟨m, s1, rfl, by simp [rmwOp, ht, hb, bind, Except.bind, pure, Except.pure, complete]⟩

/-- All a branch can do: PC moves or stays, in 2 to 4 cycles; nothing else changes (R200). -/
theorem branchOp_next (flag expected : Bool) (rel : Byte) (s : State) :
    ∃ pc k, branchOp flag expected rel s = .next ((s.setPc pc).addCycles k) ∧ 2 ≤ k ∧ k ≤ 4 := by
  unfold branchOp
  split
  · refine ⟨_, _, rfl, by omega, ?_⟩
    split <;> omega
  · exact ⟨s.pc, 2, rfl, le_refl _, by omega⟩

end Sys2Proof.Machine
end

