-- ==== Sys2Proof/Laws/Exec.lean ====
section
/-! SUPPORT. What an instruction of each class can do when it answers a next state. Every arm of `exec` is one of these
shared operations, so a proof over all instructions takes one of these lemmas per arm and never unfolds the operation. -/

namespace Sys2Proof.Machine

/-- What a bus read leaves: all but the PPU and the draw index (R65). -/
structure State.Reads (s s1 : State) : Prop where
  a : s1.a = s.a
  x : s1.x = s.x
  y : s1.y = s.y
  sp : s1.sp = s.sp
  pc : s1.pc = s.pc
  flags : s1.flags = s.flags
  ram : s1.ram = s.ram
  cyc : s1.cyc = s.cyc
  nmiPending : s1.nmiPending = s.nmiPending
  anomalies : s1.anomalies = s.anomalies
  faulted : s1.faulted = s.faulted
  irqLine : s1.irqLine = s.irqLine
  cart : s1.cart = s.cart

theorem State.Reads.refl (s : State) : s.Reads s := by constructor <;> rfl

theorem State.Reads.trans {s s1 s2 : State} (h : s.Reads s1) (k : s1.Reads s2) : s.Reads s2 := by
  obtain ⟨h1, h2, h3, h4, h5, h6, h7, h8, h9, h10, h11, h12, h13⟩ := h
  obtain ⟨k1, k2, k3, k4, k5, k6, k7, k8, k9, k10, k11, k12, k13⟩ := k
  constructor <;> simp [*]

/-- A state after reads, as an update of the state before them. -/
theorem State.Reads.eq {s t : State} (h : s.Reads t) : t = (s.setPpu t.ppu).setDraws t.draws := by
  obtain ⟨h1, h2, h3, h4, h5, h6, h7, h8, h9, h10, h11, h12, h13⟩ := h
  cases s
  cases t
  simp_all [State.setPpu, State.setDraws]

theorem State.busRead_reads {s t : State} {addr : Word} {b : Byte} (h : s.busRead addr = .ok (b, t)) : s.Reads t := by
  rw [State.busRead_frame h]
  constructor <;> rfl

theorem State.fetch_eq (s : State) :
    s.fetch = match s.busRead s.pc with
      | .ok (b, s1) => .ok (b, s1.setPc (s.pc + 1))
      | .error e => .error e := by
  unfold State.fetch
  rcases s.busRead s.pc with e | ⟨b, s1⟩ <;> rfl

/-- The read class: one operand read, its effect, at most one extra cycle (R133, R135). -/
theorem readOp_next {mode : MemMode} {base : Nat} {extra : Extra} {f : Byte → State → State} {s t : State}
    (h : readOp mode base extra f s = .next t) :
    ∃ target m s1 k, s.resolve mode = .ok (target, s) ∧ s.busRead target.ea = .ok (m, s1) ∧ s.Reads s1 ∧ k ≤ 1 ∧
      t = (f m s1).addCycles (base + k) := by
  obtain ⟨target, ht, ⟨m, s1, hb, e⟩ | ⟨r, -, e⟩⟩ := readOp_cases mode base extra f s
  · rw [e] at h
    cases h
    refine ⟨target, m, s1, _, ht, hb, State.busRead_reads hb, ?_, rfl⟩
    unfold Extra.cycles
    (repeat' split) <;> omega
  · rw [e] at h
    cases h

/-- The write class: one bus write at the resolved address (R133). -/
theorem storeOp_next {mode : MemMode} {base : Nat} {reg : State → Byte} {s t : State}
    (h : storeOp mode base reg s = .next t) :
    ∃ target, s.resolve mode = .ok (target, s) ∧ t = (s.busWrite target.ea (reg s)).addCycles base := by
  obtain ⟨target, ht, e⟩ := storeOp_eq mode base reg s
  rw [e] at h
  cases h
  exact ⟨target, ht, rfl⟩

/-- The read-modify-write class: one read and one write at the resolved address (R180). -/
theorem rmwOp_next {mode : MemMode} {base : Nat} {f : Byte → Flags → Byte × Flags} {s t : State}
    (h : rmwOp mode base f s = .next t) :
    ∃ target m s1, s.resolve mode = .ok (target, s) ∧ s.busRead target.ea = .ok (m, s1) ∧ s.Reads s1 ∧
      t = ((s1.busWrite target.ea (f m s.flags).1).setFlags (f m s.flags).2).addCycles base := by
  obtain ⟨target, ht, ⟨m, s1, hb, e⟩ | ⟨r, -, e⟩⟩ := rmwOp_cases mode base f s
  · rw [e] at h
    cases h
    have hr := State.busRead_reads hb
    exact ⟨target, m, s1, ht, hb, hr, by rw [hr.flags]⟩
  · rw [e] at h
    cases h

/-- JMP indirect: two bus reads, then PC (R143, R217). -/
theorem jumpIndirect_cases (ptr : Word) (s : State) :
    (∃ lo s1 hi s2, s.busRead ptr = .ok (lo, s1) ∧
      s1.busRead ((ptr &&& 0xFF00) ||| ((ptr + 1) &&& 0x00FF)) = .ok (hi, s2) ∧
      jumpIndirect ptr s = .ok (s2.setPc (wordOf hi lo))) ∨
    ∃ e, jumpIndirect ptr s = .error e ∧
      (s.busRead ptr = .error e ∨ ∃ lo s1, s.busRead ptr = .ok (lo, s1) ∧
        s1.busRead ((ptr &&& 0xFF00) ||| ((ptr + 1) &&& 0x00FF)) = .error e) := by
  unfold jumpIndirect State.readIndirect
  rcases s.readWordAt_cases ptr ((ptr &&& 0xFF00) ||| ((ptr + 1) &&& 0x00FF)) with
    ⟨lo, s1, hi, s2, h1, h2, h3⟩ | ⟨e, h3, h⟩
  · exact .inl ⟨lo, s1, hi, s2, h1, h2, by simp only [h3, bind, Except.bind, pure, Except.pure]⟩
  · exact .inr ⟨e, by simp only [h3, bind, Except.bind], h⟩

/-- Accumulator mode: A and the flags, 2 cycles (R138). -/
theorem accOp_next {f : Byte → Flags → Byte × Flags} {s t : State} (h : accOp f s = .next t) :
    t = ((s.setA (f s.a s.flags).1).setFlags (f s.a s.flags).2).addCycles 2 := by
  cases h
  rfl

/-- Immediate mode: its effect, 2 cycles (R139). -/
theorem immOp_next {imm : Byte} {f : Byte → State → State} {s t : State} (h : immOp imm f s = .next t) :
    t = (f imm s).addCycles 2 := by
  cases h
  rfl

/-- JMP indirect, completed: the two reads, then PC. -/
theorem jumpIndirect_next {ptr : Word} {k : Nat} {s t : State} (h : finishRead (jumpIndirect ptr s) k = .next t) :
    ∃ lo s1 hi s2, s.busRead ptr = .ok (lo, s1) ∧
      s1.busRead ((ptr &&& 0xFF00) ||| ((ptr + 1) &&& 0x00FF)) = .ok (hi, s2) ∧ s.Reads s2 ∧
      t = (s2.setPc (wordOf hi lo)).addCycles k := by
  rcases jumpIndirect_cases ptr s with ⟨lo, s1, hi, s2, h1, h2, h3⟩ | ⟨e, h1, -⟩
  · rw [h3] at h
    cases h
    exact ⟨lo, s1, hi, s2, h1, h2, (State.busRead_reads h1).trans (State.busRead_reads h2), rfl⟩
  · rw [h1] at h
    cases h

/-! ## The class of every instruction -/

/-- The effect each read-class operation has of its operand. -/
inductive ReadEffect : Operation → (Byte → State → State) → Prop where
  | adc : ReadEffect .adc adc
  | sbc : ReadEffect .sbc sbc
  | cmp : ReadEffect .cmp compareA
  | cpx : ReadEffect .cpx compareX
  | cpy : ReadEffect .cpy compareY
  | and : ReadEffect .and andA
  | ora : ReadEffect .ora oraA
  | eor : ReadEffect .eor eorA
  | bit : ReadEffect .bit bitTest
  | lda : ReadEffect .lda lda
  | ldx : ReadEffect .ldx ldx
  | ldy : ReadEffect .ldy ldy

/-- The function each read-modify-write operation applies. -/
inductive RmwEffect : Operation → (Byte → Flags → Byte × Flags) → Prop where
  | asl : RmwEffect .asl shiftLeft
  | lsr : RmwEffect .lsr shiftRight
  | rol : RmwEffect .rol rotateLeft
  | ror : RmwEffect .ror rotateRight
  | inc : RmwEffect .inc increment
  | dec : RmwEffect .dec decrement

/-- The register each store writes out. -/
inductive StoreSource : Operation → (State → Byte) → Prop where
  | sta : StoreSource .sta State.a
  | stx : StoreSource .stx State.x
  | sty : StoreSource .sty State.y

/-- What every implied instruction without an operand class of its own does, by its operation. -/
inductive Plain : Operation → State → State → Prop where
  | pha (s) : Plain .pha s ((s.push s.a).addCycles 3)
  | php (s) : Plain .php s ((s.push (s.flags.pack true)).addCycles 3)
  | pla (s) : Plain .pla s
    ((setANZ (s.ram.read (0x100 + (s.sp + 1).toNat)) (s.setSp (s.sp + 1))).addCycles 4)
  | plp (s) : Plain .plp s
    (((s.setSp (s.sp + 1)).setFlags (Flags.unpack (s.ram.read (0x100 + (s.sp + 1).toNat)))).addCycles 4)
  | jsr (s addr) : Plain .jsr s ((callSubroutine addr s).addCycles 6)
  | rts (s) : Plain .rts s (((s.setSp (s.sp + 2)).setPc
    (wordOf (s.ram.read (0x100 + (s.sp + 2).toNat)) (s.ram.read (0x100 + (s.sp + 1).toNat)) + 1)).addCycles 6)
  | jmp (s addr) : Plain .jmp s ((s.setPc addr).addCycles 3)
  | brk (s) : Plain .brk s
    (((((s.pushWord (s.pc + 1)).push (s.flags.pack true)).setFlags { s.flags with i := true }).setPc
      (vectorWord s.cart irqVector)).addCycles 7)
  | rti (s) : Plain .rti s (((s.setSp (s.sp + 3)).setFlags
      (Flags.unpack (s.ram.read (0x100 + (s.sp + 1).toNat)))).setPc
        (wordOf (s.ram.read (0x100 + (s.sp + 3).toNat)) (s.ram.read (0x100 + (s.sp + 2).toNat))) |>.addCycles 6)
  | inx (s) : Plain .inx s ((setXNZ (s.x + 1) s).addCycles 2)
  | iny (s) : Plain .iny s ((setYNZ (s.y + 1) s).addCycles 2)
  | dex (s) : Plain .dex s ((setXNZ (s.x - 1) s).addCycles 2)
  | dey (s) : Plain .dey s ((setYNZ (s.y - 1) s).addCycles 2)
  | tax (s) : Plain .tax s ((setXNZ s.a s).addCycles 2)
  | tay (s) : Plain .tay s ((setYNZ s.a s).addCycles 2)
  | txa (s) : Plain .txa s ((setANZ s.x s).addCycles 2)
  | tya (s) : Plain .tya s ((setANZ s.y s).addCycles 2)
  | tsx (s) : Plain .tsx s ((setXNZ s.sp s).addCycles 2)
  | txs (s) : Plain .txs s ((s.setSp s.x).addCycles 2)
  | clc (s) : Plain .clc s ((s.setFlags { s.flags with c := false }).addCycles 2)
  | sec (s) : Plain .sec s ((s.setFlags { s.flags with c := true }).addCycles 2)
  | cli (s) : Plain .cli s ((s.setFlags { s.flags with i := false }).addCycles 2)
  | sei (s) : Plain .sei s ((s.setFlags { s.flags with i := true }).addCycles 2)
  | clv (s) : Plain .clv s ((s.setFlags { s.flags with v := false }).addCycles 2)
  | cld (s) : Plain .cld s ((s.setFlags { s.flags with d := false }).addCycles 2)
  | sed (s) : Plain .sed s ((s.setFlags { s.flags with d := true }).addCycles 2)
  | nop (s) : Plain .nop s (s.addCycles 2)
  | unassigned (s op) : Plain .unassigned s ((s.raiseAnomaly (s.pc - 1) op).addCycles 1)

/-- The class of an instruction: which shared operation its arm of `exec` is, on what mode, with what effect. -/
inductive ExecClass (i : Instr) : Prop where
  | read (mode : MemMode) (base : Nat) (extra : Extra) (f : Byte → State → State) (effect : ReadEffect i.operation f)
    (arm : ∀ s, exec i s = readOp mode base extra f s) (reads : i.readMode = some mode) (writes : i.writeMode = none)
    (low : 3 ≤ base) (high : base ≤ 6)
  | immediate (imm : Byte) (f : Byte → State → State) (effect : ReadEffect i.operation f)
    (arm : ∀ s, exec i s = immOp imm f s) (reads : i.readMode = none) (writes : i.writeMode = none)
  | store (mode : MemMode) (base : Nat) (reg : State → Byte) (source : StoreSource i.operation reg)
    (arm : ∀ s, exec i s = storeOp mode base reg s) (reads : i.readMode = none) (writes : i.writeMode = some mode)
    (low : 3 ≤ base) (high : base ≤ 6)
  | modify (mode : MemMode) (base : Nat) (f : Byte → Flags → Byte × Flags) (effect : RmwEffect i.operation f)
    (arm : ∀ s, exec i s = rmwOp mode base f s) (reads : i.readMode = some mode) (writes : i.writeMode = some mode)
    (low : 5 ≤ base) (high : base ≤ 7)
  | accumulator (f : Byte → Flags → Byte × Flags) (effect : RmwEffect i.operation f)
    (which : i ∈ [Instr.aslAcc, Instr.lsrAcc, Instr.rolAcc, Instr.rorAcc])
    (arm : ∀ s, exec i s = accOp f s) (reads : i.readMode = none) (writes : i.writeMode = none)
  | branch (rel : Byte) (flag : Flags → Bool) (expected : Bool)
    (which : i.operation ∈ [.bpl, .bmi, .bvc, .bvs, .bcc, .bcs, .bne, .beq])
    (arm : ∀ s, exec i s = branchOp (flag s.flags) expected rel s) (reads : i.readMode = none)
    (writes : i.writeMode = none)
  | indirect (ptr : Word) (which : i = .jmpInd ptr)
    (arm : ∀ s, exec i s = finishRead (jumpIndirect ptr s) 5)
  | plain (arm : ∀ s, ∃ t, exec i s = .next t ∧ Plain i.operation s t) (reads : i.readMode = none)
    (writes : i.writeMode = none) (other : ∀ ptr, i ≠ .jmpInd ptr)

theorem exec_pla (s : State) : ∃ t, exec .pla s = .next t ∧ Plain .pla s t :=
  ⟨_, by simp only [exec, execPla, pullA, State.pull_eq, bind, Except.bind, pure, Except.pure, finishRead_ok], .pla s⟩

theorem exec_plp (s : State) : ∃ t, exec .plp s = .next t ∧ Plain .plp s t :=
  ⟨_, by simp only [exec, execPlp, pullFlags, State.pull_eq, bind, Except.bind, pure, Except.pure, finishRead_ok], .plp s⟩

theorem exec_rts (s : State) : ∃ t, exec .rts s = .next t ∧ Plain .rts s t :=
  ⟨_, by simp only [exec, execRts, returnFromSubroutine, State.pullWord_eq, bind, Except.bind, pure, Except.pure,
    finishRead_ok], .rts s⟩

theorem exec_rti (s : State) : ∃ t, exec .rti s = .next t ∧ Plain .rti s t :=
  ⟨_, by simp only [exec, execRti, State.returnFromInterrupt_eq, finishRead_ok], .rti s⟩

theorem exec_brk (s : State) : ∃ t, exec .brk s = .next t ∧ Plain .brk s t := by
  refine ⟨_, ?_, .brk s⟩
  simp only [exec, execBrk]
  rw [State.enterInterrupt_eq s _ _ (by decide) (by decide), State.pushWord_eq, State.push_eq]
  simp only [State.setSp_sp, State.setSp_ram, State.setRam_ram, BitVec.sub_sub]
  rfl

/-- Every instruction has its class: the one case split over all constructors that a proof about `exec` needs. -/
theorem exec_class : ∀ i : Instr, ExecClass i
  | .adcIndX zp => .read (.indX zp) 6 .none adc .adc (fun _ => rfl) rfl rfl
    (by decide) (by decide)
  | .adcZp zp => .read (.zp zp) 3 .none adc .adc (fun _ => rfl) rfl rfl
    (by decide) (by decide)
  | .adcImm imm => .immediate imm adc .adc (fun _ => rfl) rfl rfl
  | .adcAbs addr => .read (.abs addr) 4 .none adc .adc (fun _ => rfl) rfl rfl
    (by decide) (by decide)
  | .adcIndY zp => .read (.indY zp) 5 .page adc .adc (fun _ => rfl) rfl rfl
    (by decide) (by decide)
  | .adcZpX zp => .read (.zpX zp) 4 .none adc .adc (fun _ => rfl) rfl rfl
    (by decide) (by decide)
  | .adcAbsY addr => .read (.absY addr) 4 .page adc .adc (fun _ => rfl) rfl rfl
    (by decide) (by decide)
  | .adcAbsX addr => .read (.absX addr) 4 .page adc .adc (fun _ => rfl) rfl rfl
    (by decide) (by decide)
  | .sbcIndX zp => .read (.indX zp) 6 .none sbc .sbc (fun _ => rfl) rfl rfl
    (by decide) (by decide)
  | .sbcZp zp => .read (.zp zp) 3 .none sbc .sbc (fun _ => rfl) rfl rfl
    (by decide) (by decide)
  | .sbcImm imm => .immediate imm sbc .sbc (fun _ => rfl) rfl rfl
  | .sbcAbs addr => .read (.abs addr) 4 .none sbc .sbc (fun _ => rfl) rfl rfl
    (by decide) (by decide)
  | .sbcIndY zp => .read (.indY zp) 5 .page sbc .sbc (fun _ => rfl) rfl rfl
    (by decide) (by decide)
  | .sbcZpX zp => .read (.zpX zp) 4 .none sbc .sbc (fun _ => rfl) rfl rfl
    (by decide) (by decide)
  | .sbcAbsY addr => .read (.absY addr) 4 .page sbc .sbc (fun _ => rfl) rfl rfl
    (by decide) (by decide)
  | .sbcAbsX addr => .read (.absX addr) 4 .page sbc .sbc (fun _ => rfl) rfl rfl
    (by decide) (by decide)
  | .cmpIndX zp => .read (.indX zp) 6 .none compareA .cmp (fun _ => rfl) rfl rfl
    (by decide) (by decide)
  | .cmpZp zp => .read (.zp zp) 3 .none compareA .cmp (fun _ => rfl) rfl rfl
    (by decide) (by decide)
  | .cmpImm imm => .immediate imm compareA .cmp (fun _ => rfl) rfl rfl
  | .cmpAbs addr => .read (.abs addr) 4 .none compareA .cmp (fun _ => rfl) rfl rfl
    (by decide) (by decide)
  | .cmpIndY zp => .read (.indY zp) 5 .page compareA .cmp (fun _ => rfl) rfl rfl
    (by decide) (by decide)
  | .cmpZpX zp => .read (.zpX zp) 4 .none compareA .cmp (fun _ => rfl) rfl rfl
    (by decide) (by decide)
  | .cmpAbsY addr => .read (.absY addr) 4 .page compareA .cmp (fun _ => rfl) rfl rfl
    (by decide) (by decide)
  | .cmpAbsX addr => .read (.absX addr) 4 .page compareA .cmp (fun _ => rfl) rfl rfl
    (by decide) (by decide)
  | .cpxImm imm => .immediate imm compareX .cpx (fun _ => rfl) rfl rfl
  | .cpxZp zp => .read (.zp zp) 3 .none compareX .cpx (fun _ => rfl) rfl rfl
    (by decide) (by decide)
  | .cpxAbs addr => .read (.abs addr) 4 .none compareX .cpx (fun _ => rfl) rfl rfl
    (by decide) (by decide)
  | .cpyImm imm => .immediate imm compareY .cpy (fun _ => rfl) rfl rfl
  | .cpyZp zp => .read (.zp zp) 3 .none compareY .cpy (fun _ => rfl) rfl rfl
    (by decide) (by decide)
  | .cpyAbs addr => .read (.abs addr) 4 .none compareY .cpy (fun _ => rfl) rfl rfl
    (by decide) (by decide)
  | .andIndX zp => .read (.indX zp) 6 .none andA .and (fun _ => rfl) rfl rfl
    (by decide) (by decide)
  | .andZp zp => .read (.zp zp) 3 .none andA .and (fun _ => rfl) rfl rfl
    (by decide) (by decide)
  | .andImm imm => .immediate imm andA .and (fun _ => rfl) rfl rfl
  | .andAbs addr => .read (.abs addr) 4 .none andA .and (fun _ => rfl) rfl rfl
    (by decide) (by decide)
  | .andIndY zp => .read (.indY zp) 5 .page andA .and (fun _ => rfl) rfl rfl
    (by decide) (by decide)
  | .andZpX zp => .read (.zpX zp) 4 .none andA .and (fun _ => rfl) rfl rfl
    (by decide) (by decide)
  | .andAbsY addr => .read (.absY addr) 4 .page andA .and (fun _ => rfl) rfl rfl
    (by decide) (by decide)
  | .andAbsX addr => .read (.absX addr) 4 .page andA .and (fun _ => rfl) rfl rfl
    (by decide) (by decide)
  | .oraIndX zp => .read (.indX zp) 6 .none oraA .ora (fun _ => rfl) rfl rfl
    (by decide) (by decide)
  | .oraZp zp => .read (.zp zp) 3 .none oraA .ora (fun _ => rfl) rfl rfl
    (by decide) (by decide)
  | .oraImm imm => .immediate imm oraA .ora (fun _ => rfl) rfl rfl
  | .oraAbs addr => .read (.abs addr) 4 .none oraA .ora (fun _ => rfl) rfl rfl
    (by decide) (by decide)
  | .oraIndY zp => .read (.indY zp) 5 .page oraA .ora (fun _ => rfl) rfl rfl
    (by decide) (by decide)
  | .oraZpX zp => .read (.zpX zp) 4 .none oraA .ora (fun _ => rfl) rfl rfl
    (by decide) (by decide)
  | .oraAbsY addr => .read (.absY addr) 4 .page oraA .ora (fun _ => rfl) rfl rfl
    (by decide) (by decide)
  | .oraAbsX addr => .read (.absX addr) 4 .page oraA .ora (fun _ => rfl) rfl rfl
    (by decide) (by decide)
  | .eorIndX zp => .read (.indX zp) 6 .none eorA .eor (fun _ => rfl) rfl rfl
    (by decide) (by decide)
  | .eorZp zp => .read (.zp zp) 3 .none eorA .eor (fun _ => rfl) rfl rfl
    (by decide) (by decide)
  | .eorImm imm => .immediate imm eorA .eor (fun _ => rfl) rfl rfl
  | .eorAbs addr => .read (.abs addr) 4 .none eorA .eor (fun _ => rfl) rfl rfl
    (by decide) (by decide)
  | .eorIndY zp => .read (.indY zp) 5 .page eorA .eor (fun _ => rfl) rfl rfl
    (by decide) (by decide)
  | .eorZpX zp => .read (.zpX zp) 4 .none eorA .eor (fun _ => rfl) rfl rfl
    (by decide) (by decide)
  | .eorAbsY addr => .read (.absY addr) 4 .page eorA .eor (fun _ => rfl) rfl rfl
    (by decide) (by decide)
  | .eorAbsX addr => .read (.absX addr) 4 .page eorA .eor (fun _ => rfl) rfl rfl
    (by decide) (by decide)
  | .bitZp zp => .read (.zp zp) 3 .none bitTest .bit (fun _ => rfl) rfl rfl
    (by decide) (by decide)
  | .bitAbs addr => .read (.abs addr) 4 .none bitTest .bit (fun _ => rfl) rfl rfl
    (by decide) (by decide)
  | .aslZp zp => .modify (.zp zp) 5 shiftLeft .asl (fun _ => rfl) rfl rfl (by decide) (by decide)
  | .aslAcc => .accumulator shiftLeft .asl (by decide) (fun _ => rfl) rfl rfl
  | .aslAbs addr => .modify (.abs addr) 6 shiftLeft .asl (fun _ => rfl) rfl rfl (by decide) (by decide)
  | .aslZpX zp => .modify (.zpX zp) 6 shiftLeft .asl (fun _ => rfl) rfl rfl (by decide) (by decide)
  | .aslAbsX addr => .modify (.absX addr) 7 shiftLeft .asl (fun _ => rfl) rfl rfl (by decide) (by decide)
  | .lsrZp zp => .modify (.zp zp) 5 shiftRight .lsr (fun _ => rfl) rfl rfl (by decide) (by decide)
  | .lsrAcc => .accumulator shiftRight .lsr (by decide) (fun _ => rfl) rfl rfl
  | .lsrAbs addr => .modify (.abs addr) 6 shiftRight .lsr (fun _ => rfl) rfl rfl (by decide) (by decide)
  | .lsrZpX zp => .modify (.zpX zp) 6 shiftRight .lsr (fun _ => rfl) rfl rfl (by decide) (by decide)
  | .lsrAbsX addr => .modify (.absX addr) 7 shiftRight .lsr (fun _ => rfl) rfl rfl (by decide) (by decide)
  | .rolZp zp => .modify (.zp zp) 5 rotateLeft .rol (fun _ => rfl) rfl rfl (by decide) (by decide)
  | .rolAcc => .accumulator rotateLeft .rol (by decide) (fun _ => rfl) rfl rfl
  | .rolAbs addr => .modify (.abs addr) 6 rotateLeft .rol (fun _ => rfl) rfl rfl (by decide) (by decide)
  | .rolZpX zp => .modify (.zpX zp) 6 rotateLeft .rol (fun _ => rfl) rfl rfl (by decide) (by decide)
  | .rolAbsX addr => .modify (.absX addr) 7 rotateLeft .rol (fun _ => rfl) rfl rfl (by decide) (by decide)
  | .rorZp zp => .modify (.zp zp) 5 rotateRight .ror (fun _ => rfl) rfl rfl (by decide) (by decide)
  | .rorAcc => .accumulator rotateRight .ror (by decide) (fun _ => rfl) rfl rfl
  | .rorAbs addr => .modify (.abs addr) 6 rotateRight .ror (fun _ => rfl) rfl rfl (by decide) (by decide)
  | .rorZpX zp => .modify (.zpX zp) 6 rotateRight .ror (fun _ => rfl) rfl rfl (by decide) (by decide)
  | .rorAbsX addr => .modify (.absX addr) 7 rotateRight .ror (fun _ => rfl) rfl rfl (by decide) (by decide)
  | .incZp zp => .modify (.zp zp) 5 increment .inc (fun _ => rfl) rfl rfl (by decide) (by decide)
  | .incAbs addr => .modify (.abs addr) 6 increment .inc (fun _ => rfl) rfl rfl (by decide) (by decide)
  | .incZpX zp => .modify (.zpX zp) 6 increment .inc (fun _ => rfl) rfl rfl (by decide) (by decide)
  | .incAbsX addr => .modify (.absX addr) 7 increment .inc (fun _ => rfl) rfl rfl (by decide) (by decide)
  | .decZp zp => .modify (.zp zp) 5 decrement .dec (fun _ => rfl) rfl rfl (by decide) (by decide)
  | .decAbs addr => .modify (.abs addr) 6 decrement .dec (fun _ => rfl) rfl rfl (by decide) (by decide)
  | .decZpX zp => .modify (.zpX zp) 6 decrement .dec (fun _ => rfl) rfl rfl (by decide) (by decide)
  | .decAbsX addr => .modify (.absX addr) 7 decrement .dec (fun _ => rfl) rfl rfl (by decide) (by decide)
  | .inx => .plain (fun s => ⟨_, rfl, .inx s⟩) rfl rfl nofun
  | .iny => .plain (fun s => ⟨_, rfl, .iny s⟩) rfl rfl nofun
  | .dex => .plain (fun s => ⟨_, rfl, .dex s⟩) rfl rfl nofun
  | .dey => .plain (fun s => ⟨_, rfl, .dey s⟩) rfl rfl nofun
  | .bpl rel => .branch rel Flags.n false (by simp [Instr.operation]) (fun _ => rfl) rfl rfl
  | .bmi rel => .branch rel Flags.n true (by simp [Instr.operation]) (fun _ => rfl) rfl rfl
  | .bvc rel => .branch rel Flags.v false (by simp [Instr.operation]) (fun _ => rfl) rfl rfl
  | .bvs rel => .branch rel Flags.v true (by simp [Instr.operation]) (fun _ => rfl) rfl rfl
  | .bcc rel => .branch rel Flags.c false (by simp [Instr.operation]) (fun _ => rfl) rfl rfl
  | .bcs rel => .branch rel Flags.c true (by simp [Instr.operation]) (fun _ => rfl) rfl rfl
  | .bne rel => .branch rel Flags.z false (by simp [Instr.operation]) (fun _ => rfl) rfl rfl
  | .beq rel => .branch rel Flags.z true (by simp [Instr.operation]) (fun _ => rfl) rfl rfl
  | .pha => .plain (fun s => ⟨_, rfl, .pha s⟩) rfl rfl nofun
  | .php => .plain (fun s => ⟨_, rfl, .php s⟩) rfl rfl nofun
  | .pla => .plain exec_pla rfl rfl nofun
  | .plp => .plain exec_plp rfl rfl nofun
  | .jsr addr => .plain (fun s => ⟨_, rfl, .jsr s addr⟩) rfl rfl nofun
  | .rts => .plain exec_rts rfl rfl nofun
  | .jmpAbs addr => .plain (fun s => ⟨_, rfl, .jmp s addr⟩) rfl rfl nofun
  | .jmpInd ptr => .indirect ptr rfl fun _ => rfl
  | .brk => .plain exec_brk rfl rfl nofun
  | .rti => .plain exec_rti rfl rfl nofun
  | .ldaIndX zp => .read (.indX zp) 6 .none lda .lda (fun _ => rfl) rfl rfl
    (by decide) (by decide)
  | .ldaZp zp => .read (.zp zp) 3 .none lda .lda (fun _ => rfl) rfl rfl
    (by decide) (by decide)
  | .ldaImm imm => .immediate imm lda .lda (fun _ => rfl) rfl rfl
  | .ldaAbs addr => .read (.abs addr) 4 .none lda .lda (fun _ => rfl) rfl rfl
    (by decide) (by decide)
  | .ldaIndY zp => .read (.indY zp) 5 .page lda .lda (fun _ => rfl) rfl rfl
    (by decide) (by decide)
  | .ldaZpX zp => .read (.zpX zp) 4 .none lda .lda (fun _ => rfl) rfl rfl
    (by decide) (by decide)
  | .ldaAbsY addr => .read (.absY addr) 4 .page lda .lda (fun _ => rfl) rfl rfl
    (by decide) (by decide)
  | .ldaAbsX addr => .read (.absX addr) 4 .page lda .lda (fun _ => rfl) rfl rfl
    (by decide) (by decide)
  | .ldxImm imm => .immediate imm ldx .ldx (fun _ => rfl) rfl rfl
  | .ldxZp zp => .read (.zp zp) 3 .none ldx .ldx (fun _ => rfl) rfl rfl
    (by decide) (by decide)
  | .ldxAbs addr => .read (.abs addr) 4 .none ldx .ldx (fun _ => rfl) rfl rfl
    (by decide) (by decide)
  | .ldxZpY zp => .read (.zpY zp) 4 .none ldx .ldx (fun _ => rfl) rfl rfl
    (by decide) (by decide)
  | .ldxAbsY addr => .read (.absY addr) 4 .page ldx .ldx (fun _ => rfl) rfl rfl
    (by decide) (by decide)
  | .ldyImm imm => .immediate imm ldy .ldy (fun _ => rfl) rfl rfl
  | .ldyZp zp => .read (.zp zp) 3 .none ldy .ldy (fun _ => rfl) rfl rfl
    (by decide) (by decide)
  | .ldyAbs addr => .read (.abs addr) 4 .none ldy .ldy (fun _ => rfl) rfl rfl
    (by decide) (by decide)
  | .ldyZpX zp => .read (.zpX zp) 4 .none ldy .ldy (fun _ => rfl) rfl rfl
    (by decide) (by decide)
  | .ldyAbsX addr => .read (.absX addr) 4 .page ldy .ldy (fun _ => rfl) rfl rfl
    (by decide) (by decide)
  | .staIndX zp => .store (.indX zp) 6 State.a .sta (fun _ => rfl) rfl rfl (by decide) (by decide)
  | .staZp zp => .store (.zp zp) 3 State.a .sta (fun _ => rfl) rfl rfl (by decide) (by decide)
  | .staAbs addr => .store (.abs addr) 4 State.a .sta (fun _ => rfl) rfl rfl (by decide) (by decide)
  | .staIndY zp => .store (.indY zp) 6 State.a .sta (fun _ => rfl) rfl rfl (by decide) (by decide)
  | .staZpX zp => .store (.zpX zp) 4 State.a .sta (fun _ => rfl) rfl rfl (by decide) (by decide)
  | .staAbsY addr => .store (.absY addr) 5 State.a .sta (fun _ => rfl) rfl rfl (by decide) (by decide)
  | .staAbsX addr => .store (.absX addr) 5 State.a .sta (fun _ => rfl) rfl rfl (by decide) (by decide)
  | .stxZp zp => .store (.zp zp) 3 State.x .stx (fun _ => rfl) rfl rfl (by decide) (by decide)
  | .stxAbs addr => .store (.abs addr) 4 State.x .stx (fun _ => rfl) rfl rfl (by decide) (by decide)
  | .stxZpY zp => .store (.zpY zp) 4 State.x .stx (fun _ => rfl) rfl rfl (by decide) (by decide)
  | .styZp zp => .store (.zp zp) 3 State.y .sty (fun _ => rfl) rfl rfl (by decide) (by decide)
  | .styAbs addr => .store (.abs addr) 4 State.y .sty (fun _ => rfl) rfl rfl (by decide) (by decide)
  | .styZpX zp => .store (.zpX zp) 4 State.y .sty (fun _ => rfl) rfl rfl (by decide) (by decide)
  | .tax => .plain (fun s => ⟨_, rfl, .tax s⟩) rfl rfl nofun
  | .tay => .plain (fun s => ⟨_, rfl, .tay s⟩) rfl rfl nofun
  | .txa => .plain (fun s => ⟨_, rfl, .txa s⟩) rfl rfl nofun
  | .tya => .plain (fun s => ⟨_, rfl, .tya s⟩) rfl rfl nofun
  | .tsx => .plain (fun s => ⟨_, rfl, .tsx s⟩) rfl rfl nofun
  | .txs => .plain (fun s => ⟨_, rfl, .txs s⟩) rfl rfl nofun
  | .clc => .plain (fun s => ⟨_, rfl, .clc s⟩) rfl rfl nofun
  | .sec => .plain (fun s => ⟨_, rfl, .sec s⟩) rfl rfl nofun
  | .cli => .plain (fun s => ⟨_, rfl, .cli s⟩) rfl rfl nofun
  | .sei => .plain (fun s => ⟨_, rfl, .sei s⟩) rfl rfl nofun
  | .clv => .plain (fun s => ⟨_, rfl, .clv s⟩) rfl rfl nofun
  | .cld => .plain (fun s => ⟨_, rfl, .cld s⟩) rfl rfl nofun
  | .sed => .plain (fun s => ⟨_, rfl, .sed s⟩) rfl rfl nofun
  | .nop => .plain (fun s => ⟨_, rfl, .nop s⟩) rfl rfl nofun
  | .unassigned op => .plain (fun s => ⟨_, rfl, .unassigned s op⟩) rfl rfl nofun

end Sys2Proof.Machine
end

