-- ==== Sys2Proof/Laws/PerInstr.lean ====
section
/-! SUPPORT. A family of statements made for each instruction: its encoding is exactly as long as its opcode byte alone says
(R102). -/

/-- The encoding has the length that its own opcode byte, its first byte, determines (R102). -/
def Sys2Proof.Laws.EncodedLength.Statement (i : Sys2Proof.Instr) : Prop :=
  i.wf = true → ∃ op rest, Sys2Proof.encode i = op :: rest ∧ (Sys2Proof.encode i).length = Sys2Proof.opcodeLength op

theorem Sys2Proof.Laws.EncodedLength.adcIndX (zp : Sys2Proof.Byte) : Sys2Proof.Laws.EncodedLength.Statement (.adcIndX zp) :=
  fun _ => ⟨_, _, rfl, rfl⟩

theorem Sys2Proof.Laws.EncodedLength.adcZp (zp : Sys2Proof.Byte) : Sys2Proof.Laws.EncodedLength.Statement (.adcZp zp) :=
  fun _ => ⟨_, _, rfl, rfl⟩

theorem Sys2Proof.Laws.EncodedLength.adcImm (imm : Sys2Proof.Byte) : Sys2Proof.Laws.EncodedLength.Statement (.adcImm imm) :=
  fun _ => ⟨_, _, rfl, rfl⟩

theorem Sys2Proof.Laws.EncodedLength.adcAbs (addr : Sys2Proof.Word) : Sys2Proof.Laws.EncodedLength.Statement (.adcAbs addr) :=
  fun _ => ⟨_, _, rfl, rfl⟩

theorem Sys2Proof.Laws.EncodedLength.adcIndY (zp : Sys2Proof.Byte) : Sys2Proof.Laws.EncodedLength.Statement (.adcIndY zp) :=
  fun _ => ⟨_, _, rfl, rfl⟩

theorem Sys2Proof.Laws.EncodedLength.adcZpX (zp : Sys2Proof.Byte) : Sys2Proof.Laws.EncodedLength.Statement (.adcZpX zp) :=
  fun _ => ⟨_, _, rfl, rfl⟩

theorem Sys2Proof.Laws.EncodedLength.adcAbsY (addr : Sys2Proof.Word) : Sys2Proof.Laws.EncodedLength.Statement (.adcAbsY addr) :=
  fun _ => ⟨_, _, rfl, rfl⟩

theorem Sys2Proof.Laws.EncodedLength.adcAbsX (addr : Sys2Proof.Word) : Sys2Proof.Laws.EncodedLength.Statement (.adcAbsX addr) :=
  fun _ => ⟨_, _, rfl, rfl⟩

theorem Sys2Proof.Laws.EncodedLength.sbcIndX (zp : Sys2Proof.Byte) : Sys2Proof.Laws.EncodedLength.Statement (.sbcIndX zp) :=
  fun _ => ⟨_, _, rfl, rfl⟩

theorem Sys2Proof.Laws.EncodedLength.sbcZp (zp : Sys2Proof.Byte) : Sys2Proof.Laws.EncodedLength.Statement (.sbcZp zp) :=
  fun _ => ⟨_, _, rfl, rfl⟩

theorem Sys2Proof.Laws.EncodedLength.sbcImm (imm : Sys2Proof.Byte) : Sys2Proof.Laws.EncodedLength.Statement (.sbcImm imm) :=
  fun _ => ⟨_, _, rfl, rfl⟩

theorem Sys2Proof.Laws.EncodedLength.sbcAbs (addr : Sys2Proof.Word) : Sys2Proof.Laws.EncodedLength.Statement (.sbcAbs addr) :=
  fun _ => ⟨_, _, rfl, rfl⟩

theorem Sys2Proof.Laws.EncodedLength.sbcIndY (zp : Sys2Proof.Byte) : Sys2Proof.Laws.EncodedLength.Statement (.sbcIndY zp) :=
  fun _ => ⟨_, _, rfl, rfl⟩

theorem Sys2Proof.Laws.EncodedLength.sbcZpX (zp : Sys2Proof.Byte) : Sys2Proof.Laws.EncodedLength.Statement (.sbcZpX zp) :=
  fun _ => ⟨_, _, rfl, rfl⟩

theorem Sys2Proof.Laws.EncodedLength.sbcAbsY (addr : Sys2Proof.Word) : Sys2Proof.Laws.EncodedLength.Statement (.sbcAbsY addr) :=
  fun _ => ⟨_, _, rfl, rfl⟩

theorem Sys2Proof.Laws.EncodedLength.sbcAbsX (addr : Sys2Proof.Word) : Sys2Proof.Laws.EncodedLength.Statement (.sbcAbsX addr) :=
  fun _ => ⟨_, _, rfl, rfl⟩

theorem Sys2Proof.Laws.EncodedLength.cmpIndX (zp : Sys2Proof.Byte) : Sys2Proof.Laws.EncodedLength.Statement (.cmpIndX zp) :=
  fun _ => ⟨_, _, rfl, rfl⟩

theorem Sys2Proof.Laws.EncodedLength.cmpZp (zp : Sys2Proof.Byte) : Sys2Proof.Laws.EncodedLength.Statement (.cmpZp zp) :=
  fun _ => ⟨_, _, rfl, rfl⟩

theorem Sys2Proof.Laws.EncodedLength.cmpImm (imm : Sys2Proof.Byte) : Sys2Proof.Laws.EncodedLength.Statement (.cmpImm imm) :=
  fun _ => ⟨_, _, rfl, rfl⟩

theorem Sys2Proof.Laws.EncodedLength.cmpAbs (addr : Sys2Proof.Word) : Sys2Proof.Laws.EncodedLength.Statement (.cmpAbs addr) :=
  fun _ => ⟨_, _, rfl, rfl⟩

theorem Sys2Proof.Laws.EncodedLength.cmpIndY (zp : Sys2Proof.Byte) : Sys2Proof.Laws.EncodedLength.Statement (.cmpIndY zp) :=
  fun _ => ⟨_, _, rfl, rfl⟩

theorem Sys2Proof.Laws.EncodedLength.cmpZpX (zp : Sys2Proof.Byte) : Sys2Proof.Laws.EncodedLength.Statement (.cmpZpX zp) :=
  fun _ => ⟨_, _, rfl, rfl⟩

theorem Sys2Proof.Laws.EncodedLength.cmpAbsY (addr : Sys2Proof.Word) : Sys2Proof.Laws.EncodedLength.Statement (.cmpAbsY addr) :=
  fun _ => ⟨_, _, rfl, rfl⟩

theorem Sys2Proof.Laws.EncodedLength.cmpAbsX (addr : Sys2Proof.Word) : Sys2Proof.Laws.EncodedLength.Statement (.cmpAbsX addr) :=
  fun _ => ⟨_, _, rfl, rfl⟩

theorem Sys2Proof.Laws.EncodedLength.cpxImm (imm : Sys2Proof.Byte) : Sys2Proof.Laws.EncodedLength.Statement (.cpxImm imm) :=
  fun _ => ⟨_, _, rfl, rfl⟩

theorem Sys2Proof.Laws.EncodedLength.cpxZp (zp : Sys2Proof.Byte) : Sys2Proof.Laws.EncodedLength.Statement (.cpxZp zp) :=
  fun _ => ⟨_, _, rfl, rfl⟩

theorem Sys2Proof.Laws.EncodedLength.cpxAbs (addr : Sys2Proof.Word) : Sys2Proof.Laws.EncodedLength.Statement (.cpxAbs addr) :=
  fun _ => ⟨_, _, rfl, rfl⟩

theorem Sys2Proof.Laws.EncodedLength.cpyImm (imm : Sys2Proof.Byte) : Sys2Proof.Laws.EncodedLength.Statement (.cpyImm imm) :=
  fun _ => ⟨_, _, rfl, rfl⟩

theorem Sys2Proof.Laws.EncodedLength.cpyZp (zp : Sys2Proof.Byte) : Sys2Proof.Laws.EncodedLength.Statement (.cpyZp zp) :=
  fun _ => ⟨_, _, rfl, rfl⟩

theorem Sys2Proof.Laws.EncodedLength.cpyAbs (addr : Sys2Proof.Word) : Sys2Proof.Laws.EncodedLength.Statement (.cpyAbs addr) :=
  fun _ => ⟨_, _, rfl, rfl⟩

theorem Sys2Proof.Laws.EncodedLength.andIndX (zp : Sys2Proof.Byte) : Sys2Proof.Laws.EncodedLength.Statement (.andIndX zp) :=
  fun _ => ⟨_, _, rfl, rfl⟩

theorem Sys2Proof.Laws.EncodedLength.andZp (zp : Sys2Proof.Byte) : Sys2Proof.Laws.EncodedLength.Statement (.andZp zp) :=
  fun _ => ⟨_, _, rfl, rfl⟩

theorem Sys2Proof.Laws.EncodedLength.andImm (imm : Sys2Proof.Byte) : Sys2Proof.Laws.EncodedLength.Statement (.andImm imm) :=
  fun _ => ⟨_, _, rfl, rfl⟩

theorem Sys2Proof.Laws.EncodedLength.andAbs (addr : Sys2Proof.Word) : Sys2Proof.Laws.EncodedLength.Statement (.andAbs addr) :=
  fun _ => ⟨_, _, rfl, rfl⟩

theorem Sys2Proof.Laws.EncodedLength.andIndY (zp : Sys2Proof.Byte) : Sys2Proof.Laws.EncodedLength.Statement (.andIndY zp) :=
  fun _ => ⟨_, _, rfl, rfl⟩

theorem Sys2Proof.Laws.EncodedLength.andZpX (zp : Sys2Proof.Byte) : Sys2Proof.Laws.EncodedLength.Statement (.andZpX zp) :=
  fun _ => ⟨_, _, rfl, rfl⟩

theorem Sys2Proof.Laws.EncodedLength.andAbsY (addr : Sys2Proof.Word) : Sys2Proof.Laws.EncodedLength.Statement (.andAbsY addr) :=
  fun _ => ⟨_, _, rfl, rfl⟩

theorem Sys2Proof.Laws.EncodedLength.andAbsX (addr : Sys2Proof.Word) : Sys2Proof.Laws.EncodedLength.Statement (.andAbsX addr) :=
  fun _ => ⟨_, _, rfl, rfl⟩

theorem Sys2Proof.Laws.EncodedLength.oraIndX (zp : Sys2Proof.Byte) : Sys2Proof.Laws.EncodedLength.Statement (.oraIndX zp) :=
  fun _ => ⟨_, _, rfl, rfl⟩

theorem Sys2Proof.Laws.EncodedLength.oraZp (zp : Sys2Proof.Byte) : Sys2Proof.Laws.EncodedLength.Statement (.oraZp zp) :=
  fun _ => ⟨_, _, rfl, rfl⟩

theorem Sys2Proof.Laws.EncodedLength.oraImm (imm : Sys2Proof.Byte) : Sys2Proof.Laws.EncodedLength.Statement (.oraImm imm) :=
  fun _ => ⟨_, _, rfl, rfl⟩

theorem Sys2Proof.Laws.EncodedLength.oraAbs (addr : Sys2Proof.Word) : Sys2Proof.Laws.EncodedLength.Statement (.oraAbs addr) :=
  fun _ => ⟨_, _, rfl, rfl⟩

theorem Sys2Proof.Laws.EncodedLength.oraIndY (zp : Sys2Proof.Byte) : Sys2Proof.Laws.EncodedLength.Statement (.oraIndY zp) :=
  fun _ => ⟨_, _, rfl, rfl⟩

theorem Sys2Proof.Laws.EncodedLength.oraZpX (zp : Sys2Proof.Byte) : Sys2Proof.Laws.EncodedLength.Statement (.oraZpX zp) :=
  fun _ => ⟨_, _, rfl, rfl⟩

theorem Sys2Proof.Laws.EncodedLength.oraAbsY (addr : Sys2Proof.Word) : Sys2Proof.Laws.EncodedLength.Statement (.oraAbsY addr) :=
  fun _ => ⟨_, _, rfl, rfl⟩

theorem Sys2Proof.Laws.EncodedLength.oraAbsX (addr : Sys2Proof.Word) : Sys2Proof.Laws.EncodedLength.Statement (.oraAbsX addr) :=
  fun _ => ⟨_, _, rfl, rfl⟩

theorem Sys2Proof.Laws.EncodedLength.eorIndX (zp : Sys2Proof.Byte) : Sys2Proof.Laws.EncodedLength.Statement (.eorIndX zp) :=
  fun _ => ⟨_, _, rfl, rfl⟩

theorem Sys2Proof.Laws.EncodedLength.eorZp (zp : Sys2Proof.Byte) : Sys2Proof.Laws.EncodedLength.Statement (.eorZp zp) :=
  fun _ => ⟨_, _, rfl, rfl⟩

theorem Sys2Proof.Laws.EncodedLength.eorImm (imm : Sys2Proof.Byte) : Sys2Proof.Laws.EncodedLength.Statement (.eorImm imm) :=
  fun _ => ⟨_, _, rfl, rfl⟩

theorem Sys2Proof.Laws.EncodedLength.eorAbs (addr : Sys2Proof.Word) : Sys2Proof.Laws.EncodedLength.Statement (.eorAbs addr) :=
  fun _ => ⟨_, _, rfl, rfl⟩

theorem Sys2Proof.Laws.EncodedLength.eorIndY (zp : Sys2Proof.Byte) : Sys2Proof.Laws.EncodedLength.Statement (.eorIndY zp) :=
  fun _ => ⟨_, _, rfl, rfl⟩

theorem Sys2Proof.Laws.EncodedLength.eorZpX (zp : Sys2Proof.Byte) : Sys2Proof.Laws.EncodedLength.Statement (.eorZpX zp) :=
  fun _ => ⟨_, _, rfl, rfl⟩

theorem Sys2Proof.Laws.EncodedLength.eorAbsY (addr : Sys2Proof.Word) : Sys2Proof.Laws.EncodedLength.Statement (.eorAbsY addr) :=
  fun _ => ⟨_, _, rfl, rfl⟩

theorem Sys2Proof.Laws.EncodedLength.eorAbsX (addr : Sys2Proof.Word) : Sys2Proof.Laws.EncodedLength.Statement (.eorAbsX addr) :=
  fun _ => ⟨_, _, rfl, rfl⟩

theorem Sys2Proof.Laws.EncodedLength.bitZp (zp : Sys2Proof.Byte) : Sys2Proof.Laws.EncodedLength.Statement (.bitZp zp) :=
  fun _ => ⟨_, _, rfl, rfl⟩

theorem Sys2Proof.Laws.EncodedLength.bitAbs (addr : Sys2Proof.Word) : Sys2Proof.Laws.EncodedLength.Statement (.bitAbs addr) :=
  fun _ => ⟨_, _, rfl, rfl⟩

theorem Sys2Proof.Laws.EncodedLength.aslZp (zp : Sys2Proof.Byte) : Sys2Proof.Laws.EncodedLength.Statement (.aslZp zp) :=
  fun _ => ⟨_, _, rfl, rfl⟩

theorem Sys2Proof.Laws.EncodedLength.aslAcc : Sys2Proof.Laws.EncodedLength.Statement .aslAcc :=
  fun _ => ⟨_, _, rfl, rfl⟩

theorem Sys2Proof.Laws.EncodedLength.aslAbs (addr : Sys2Proof.Word) : Sys2Proof.Laws.EncodedLength.Statement (.aslAbs addr) :=
  fun _ => ⟨_, _, rfl, rfl⟩

theorem Sys2Proof.Laws.EncodedLength.aslZpX (zp : Sys2Proof.Byte) : Sys2Proof.Laws.EncodedLength.Statement (.aslZpX zp) :=
  fun _ => ⟨_, _, rfl, rfl⟩

theorem Sys2Proof.Laws.EncodedLength.aslAbsX (addr : Sys2Proof.Word) : Sys2Proof.Laws.EncodedLength.Statement (.aslAbsX addr) :=
  fun _ => ⟨_, _, rfl, rfl⟩

theorem Sys2Proof.Laws.EncodedLength.lsrZp (zp : Sys2Proof.Byte) : Sys2Proof.Laws.EncodedLength.Statement (.lsrZp zp) :=
  fun _ => ⟨_, _, rfl, rfl⟩

theorem Sys2Proof.Laws.EncodedLength.lsrAcc : Sys2Proof.Laws.EncodedLength.Statement .lsrAcc :=
  fun _ => ⟨_, _, rfl, rfl⟩

theorem Sys2Proof.Laws.EncodedLength.lsrAbs (addr : Sys2Proof.Word) : Sys2Proof.Laws.EncodedLength.Statement (.lsrAbs addr) :=
  fun _ => ⟨_, _, rfl, rfl⟩

theorem Sys2Proof.Laws.EncodedLength.lsrZpX (zp : Sys2Proof.Byte) : Sys2Proof.Laws.EncodedLength.Statement (.lsrZpX zp) :=
  fun _ => ⟨_, _, rfl, rfl⟩

theorem Sys2Proof.Laws.EncodedLength.lsrAbsX (addr : Sys2Proof.Word) : Sys2Proof.Laws.EncodedLength.Statement (.lsrAbsX addr) :=
  fun _ => ⟨_, _, rfl, rfl⟩

theorem Sys2Proof.Laws.EncodedLength.rolZp (zp : Sys2Proof.Byte) : Sys2Proof.Laws.EncodedLength.Statement (.rolZp zp) :=
  fun _ => ⟨_, _, rfl, rfl⟩

theorem Sys2Proof.Laws.EncodedLength.rolAcc : Sys2Proof.Laws.EncodedLength.Statement .rolAcc :=
  fun _ => ⟨_, _, rfl, rfl⟩

theorem Sys2Proof.Laws.EncodedLength.rolAbs (addr : Sys2Proof.Word) : Sys2Proof.Laws.EncodedLength.Statement (.rolAbs addr) :=
  fun _ => ⟨_, _, rfl, rfl⟩

theorem Sys2Proof.Laws.EncodedLength.rolZpX (zp : Sys2Proof.Byte) : Sys2Proof.Laws.EncodedLength.Statement (.rolZpX zp) :=
  fun _ => ⟨_, _, rfl, rfl⟩

theorem Sys2Proof.Laws.EncodedLength.rolAbsX (addr : Sys2Proof.Word) : Sys2Proof.Laws.EncodedLength.Statement (.rolAbsX addr) :=
  fun _ => ⟨_, _, rfl, rfl⟩

theorem Sys2Proof.Laws.EncodedLength.rorZp (zp : Sys2Proof.Byte) : Sys2Proof.Laws.EncodedLength.Statement (.rorZp zp) :=
  fun _ => ⟨_, _, rfl, rfl⟩

theorem Sys2Proof.Laws.EncodedLength.rorAcc : Sys2Proof.Laws.EncodedLength.Statement .rorAcc :=
  fun _ => ⟨_, _, rfl, rfl⟩

theorem Sys2Proof.Laws.EncodedLength.rorAbs (addr : Sys2Proof.Word) : Sys2Proof.Laws.EncodedLength.Statement (.rorAbs addr) :=
  fun _ => ⟨_, _, rfl, rfl⟩

theorem Sys2Proof.Laws.EncodedLength.rorZpX (zp : Sys2Proof.Byte) : Sys2Proof.Laws.EncodedLength.Statement (.rorZpX zp) :=
  fun _ => ⟨_, _, rfl, rfl⟩

theorem Sys2Proof.Laws.EncodedLength.rorAbsX (addr : Sys2Proof.Word) : Sys2Proof.Laws.EncodedLength.Statement (.rorAbsX addr) :=
  fun _ => ⟨_, _, rfl, rfl⟩

theorem Sys2Proof.Laws.EncodedLength.incZp (zp : Sys2Proof.Byte) : Sys2Proof.Laws.EncodedLength.Statement (.incZp zp) :=
  fun _ => ⟨_, _, rfl, rfl⟩

theorem Sys2Proof.Laws.EncodedLength.incAbs (addr : Sys2Proof.Word) : Sys2Proof.Laws.EncodedLength.Statement (.incAbs addr) :=
  fun _ => ⟨_, _, rfl, rfl⟩

theorem Sys2Proof.Laws.EncodedLength.incZpX (zp : Sys2Proof.Byte) : Sys2Proof.Laws.EncodedLength.Statement (.incZpX zp) :=
  fun _ => ⟨_, _, rfl, rfl⟩

theorem Sys2Proof.Laws.EncodedLength.incAbsX (addr : Sys2Proof.Word) : Sys2Proof.Laws.EncodedLength.Statement (.incAbsX addr) :=
  fun _ => ⟨_, _, rfl, rfl⟩

theorem Sys2Proof.Laws.EncodedLength.decZp (zp : Sys2Proof.Byte) : Sys2Proof.Laws.EncodedLength.Statement (.decZp zp) :=
  fun _ => ⟨_, _, rfl, rfl⟩

theorem Sys2Proof.Laws.EncodedLength.decAbs (addr : Sys2Proof.Word) : Sys2Proof.Laws.EncodedLength.Statement (.decAbs addr) :=
  fun _ => ⟨_, _, rfl, rfl⟩

theorem Sys2Proof.Laws.EncodedLength.decZpX (zp : Sys2Proof.Byte) : Sys2Proof.Laws.EncodedLength.Statement (.decZpX zp) :=
  fun _ => ⟨_, _, rfl, rfl⟩

theorem Sys2Proof.Laws.EncodedLength.decAbsX (addr : Sys2Proof.Word) : Sys2Proof.Laws.EncodedLength.Statement (.decAbsX addr) :=
  fun _ => ⟨_, _, rfl, rfl⟩

theorem Sys2Proof.Laws.EncodedLength.inx : Sys2Proof.Laws.EncodedLength.Statement .inx :=
  fun _ => ⟨_, _, rfl, rfl⟩

theorem Sys2Proof.Laws.EncodedLength.iny : Sys2Proof.Laws.EncodedLength.Statement .iny :=
  fun _ => ⟨_, _, rfl, rfl⟩

theorem Sys2Proof.Laws.EncodedLength.dex : Sys2Proof.Laws.EncodedLength.Statement .dex :=
  fun _ => ⟨_, _, rfl, rfl⟩

theorem Sys2Proof.Laws.EncodedLength.dey : Sys2Proof.Laws.EncodedLength.Statement .dey :=
  fun _ => ⟨_, _, rfl, rfl⟩

theorem Sys2Proof.Laws.EncodedLength.bpl (rel : Sys2Proof.Byte) : Sys2Proof.Laws.EncodedLength.Statement (.bpl rel) :=
  fun _ => ⟨_, _, rfl, rfl⟩

theorem Sys2Proof.Laws.EncodedLength.bmi (rel : Sys2Proof.Byte) : Sys2Proof.Laws.EncodedLength.Statement (.bmi rel) :=
  fun _ => ⟨_, _, rfl, rfl⟩

theorem Sys2Proof.Laws.EncodedLength.bvc (rel : Sys2Proof.Byte) : Sys2Proof.Laws.EncodedLength.Statement (.bvc rel) :=
  fun _ => ⟨_, _, rfl, rfl⟩

theorem Sys2Proof.Laws.EncodedLength.bvs (rel : Sys2Proof.Byte) : Sys2Proof.Laws.EncodedLength.Statement (.bvs rel) :=
  fun _ => ⟨_, _, rfl, rfl⟩

theorem Sys2Proof.Laws.EncodedLength.bcc (rel : Sys2Proof.Byte) : Sys2Proof.Laws.EncodedLength.Statement (.bcc rel) :=
  fun _ => ⟨_, _, rfl, rfl⟩

theorem Sys2Proof.Laws.EncodedLength.bcs (rel : Sys2Proof.Byte) : Sys2Proof.Laws.EncodedLength.Statement (.bcs rel) :=
  fun _ => ⟨_, _, rfl, rfl⟩

theorem Sys2Proof.Laws.EncodedLength.bne (rel : Sys2Proof.Byte) : Sys2Proof.Laws.EncodedLength.Statement (.bne rel) :=
  fun _ => ⟨_, _, rfl, rfl⟩

theorem Sys2Proof.Laws.EncodedLength.beq (rel : Sys2Proof.Byte) : Sys2Proof.Laws.EncodedLength.Statement (.beq rel) :=
  fun _ => ⟨_, _, rfl, rfl⟩

theorem Sys2Proof.Laws.EncodedLength.pha : Sys2Proof.Laws.EncodedLength.Statement .pha :=
  fun _ => ⟨_, _, rfl, rfl⟩

theorem Sys2Proof.Laws.EncodedLength.php : Sys2Proof.Laws.EncodedLength.Statement .php :=
  fun _ => ⟨_, _, rfl, rfl⟩

theorem Sys2Proof.Laws.EncodedLength.pla : Sys2Proof.Laws.EncodedLength.Statement .pla :=
  fun _ => ⟨_, _, rfl, rfl⟩

theorem Sys2Proof.Laws.EncodedLength.plp : Sys2Proof.Laws.EncodedLength.Statement .plp :=
  fun _ => ⟨_, _, rfl, rfl⟩

theorem Sys2Proof.Laws.EncodedLength.jsr (addr : Sys2Proof.Word) : Sys2Proof.Laws.EncodedLength.Statement (.jsr addr) :=
  fun _ => ⟨_, _, rfl, rfl⟩

theorem Sys2Proof.Laws.EncodedLength.rts : Sys2Proof.Laws.EncodedLength.Statement .rts :=
  fun _ => ⟨_, _, rfl, rfl⟩

theorem Sys2Proof.Laws.EncodedLength.jmpAbs (addr : Sys2Proof.Word) : Sys2Proof.Laws.EncodedLength.Statement (.jmpAbs addr) :=
  fun _ => ⟨_, _, rfl, rfl⟩

theorem Sys2Proof.Laws.EncodedLength.jmpInd (ptr : Sys2Proof.Word) : Sys2Proof.Laws.EncodedLength.Statement (.jmpInd ptr) :=
  fun _ => ⟨_, _, rfl, rfl⟩

theorem Sys2Proof.Laws.EncodedLength.brk : Sys2Proof.Laws.EncodedLength.Statement .brk :=
  fun _ => ⟨_, _, rfl, rfl⟩

theorem Sys2Proof.Laws.EncodedLength.rti : Sys2Proof.Laws.EncodedLength.Statement .rti :=
  fun _ => ⟨_, _, rfl, rfl⟩

theorem Sys2Proof.Laws.EncodedLength.ldaIndX (zp : Sys2Proof.Byte) : Sys2Proof.Laws.EncodedLength.Statement (.ldaIndX zp) :=
  fun _ => ⟨_, _, rfl, rfl⟩

theorem Sys2Proof.Laws.EncodedLength.ldaZp (zp : Sys2Proof.Byte) : Sys2Proof.Laws.EncodedLength.Statement (.ldaZp zp) :=
  fun _ => ⟨_, _, rfl, rfl⟩

theorem Sys2Proof.Laws.EncodedLength.ldaImm (imm : Sys2Proof.Byte) : Sys2Proof.Laws.EncodedLength.Statement (.ldaImm imm) :=
  fun _ => ⟨_, _, rfl, rfl⟩

theorem Sys2Proof.Laws.EncodedLength.ldaAbs (addr : Sys2Proof.Word) : Sys2Proof.Laws.EncodedLength.Statement (.ldaAbs addr) :=
  fun _ => ⟨_, _, rfl, rfl⟩

theorem Sys2Proof.Laws.EncodedLength.ldaIndY (zp : Sys2Proof.Byte) : Sys2Proof.Laws.EncodedLength.Statement (.ldaIndY zp) :=
  fun _ => ⟨_, _, rfl, rfl⟩

theorem Sys2Proof.Laws.EncodedLength.ldaZpX (zp : Sys2Proof.Byte) : Sys2Proof.Laws.EncodedLength.Statement (.ldaZpX zp) :=
  fun _ => ⟨_, _, rfl, rfl⟩

theorem Sys2Proof.Laws.EncodedLength.ldaAbsY (addr : Sys2Proof.Word) : Sys2Proof.Laws.EncodedLength.Statement (.ldaAbsY addr) :=
  fun _ => ⟨_, _, rfl, rfl⟩

theorem Sys2Proof.Laws.EncodedLength.ldaAbsX (addr : Sys2Proof.Word) : Sys2Proof.Laws.EncodedLength.Statement (.ldaAbsX addr) :=
  fun _ => ⟨_, _, rfl, rfl⟩

theorem Sys2Proof.Laws.EncodedLength.ldxImm (imm : Sys2Proof.Byte) : Sys2Proof.Laws.EncodedLength.Statement (.ldxImm imm) :=
  fun _ => ⟨_, _, rfl, rfl⟩

theorem Sys2Proof.Laws.EncodedLength.ldxZp (zp : Sys2Proof.Byte) : Sys2Proof.Laws.EncodedLength.Statement (.ldxZp zp) :=
  fun _ => ⟨_, _, rfl, rfl⟩

theorem Sys2Proof.Laws.EncodedLength.ldxAbs (addr : Sys2Proof.Word) : Sys2Proof.Laws.EncodedLength.Statement (.ldxAbs addr) :=
  fun _ => ⟨_, _, rfl, rfl⟩

theorem Sys2Proof.Laws.EncodedLength.ldxZpY (zp : Sys2Proof.Byte) : Sys2Proof.Laws.EncodedLength.Statement (.ldxZpY zp) :=
  fun _ => ⟨_, _, rfl, rfl⟩

theorem Sys2Proof.Laws.EncodedLength.ldxAbsY (addr : Sys2Proof.Word) : Sys2Proof.Laws.EncodedLength.Statement (.ldxAbsY addr) :=
  fun _ => ⟨_, _, rfl, rfl⟩

theorem Sys2Proof.Laws.EncodedLength.ldyImm (imm : Sys2Proof.Byte) : Sys2Proof.Laws.EncodedLength.Statement (.ldyImm imm) :=
  fun _ => ⟨_, _, rfl, rfl⟩

theorem Sys2Proof.Laws.EncodedLength.ldyZp (zp : Sys2Proof.Byte) : Sys2Proof.Laws.EncodedLength.Statement (.ldyZp zp) :=
  fun _ => ⟨_, _, rfl, rfl⟩

theorem Sys2Proof.Laws.EncodedLength.ldyAbs (addr : Sys2Proof.Word) : Sys2Proof.Laws.EncodedLength.Statement (.ldyAbs addr) :=
  fun _ => ⟨_, _, rfl, rfl⟩

theorem Sys2Proof.Laws.EncodedLength.ldyZpX (zp : Sys2Proof.Byte) : Sys2Proof.Laws.EncodedLength.Statement (.ldyZpX zp) :=
  fun _ => ⟨_, _, rfl, rfl⟩

theorem Sys2Proof.Laws.EncodedLength.ldyAbsX (addr : Sys2Proof.Word) : Sys2Proof.Laws.EncodedLength.Statement (.ldyAbsX addr) :=
  fun _ => ⟨_, _, rfl, rfl⟩

theorem Sys2Proof.Laws.EncodedLength.staIndX (zp : Sys2Proof.Byte) : Sys2Proof.Laws.EncodedLength.Statement (.staIndX zp) :=
  fun _ => ⟨_, _, rfl, rfl⟩

theorem Sys2Proof.Laws.EncodedLength.staZp (zp : Sys2Proof.Byte) : Sys2Proof.Laws.EncodedLength.Statement (.staZp zp) :=
  fun _ => ⟨_, _, rfl, rfl⟩

theorem Sys2Proof.Laws.EncodedLength.staAbs (addr : Sys2Proof.Word) : Sys2Proof.Laws.EncodedLength.Statement (.staAbs addr) :=
  fun _ => ⟨_, _, rfl, rfl⟩

theorem Sys2Proof.Laws.EncodedLength.staIndY (zp : Sys2Proof.Byte) : Sys2Proof.Laws.EncodedLength.Statement (.staIndY zp) :=
  fun _ => ⟨_, _, rfl, rfl⟩

theorem Sys2Proof.Laws.EncodedLength.staZpX (zp : Sys2Proof.Byte) : Sys2Proof.Laws.EncodedLength.Statement (.staZpX zp) :=
  fun _ => ⟨_, _, rfl, rfl⟩

theorem Sys2Proof.Laws.EncodedLength.staAbsY (addr : Sys2Proof.Word) : Sys2Proof.Laws.EncodedLength.Statement (.staAbsY addr) :=
  fun _ => ⟨_, _, rfl, rfl⟩

theorem Sys2Proof.Laws.EncodedLength.staAbsX (addr : Sys2Proof.Word) : Sys2Proof.Laws.EncodedLength.Statement (.staAbsX addr) :=
  fun _ => ⟨_, _, rfl, rfl⟩

theorem Sys2Proof.Laws.EncodedLength.stxZp (zp : Sys2Proof.Byte) : Sys2Proof.Laws.EncodedLength.Statement (.stxZp zp) :=
  fun _ => ⟨_, _, rfl, rfl⟩

theorem Sys2Proof.Laws.EncodedLength.stxAbs (addr : Sys2Proof.Word) : Sys2Proof.Laws.EncodedLength.Statement (.stxAbs addr) :=
  fun _ => ⟨_, _, rfl, rfl⟩

theorem Sys2Proof.Laws.EncodedLength.stxZpY (zp : Sys2Proof.Byte) : Sys2Proof.Laws.EncodedLength.Statement (.stxZpY zp) :=
  fun _ => ⟨_, _, rfl, rfl⟩

theorem Sys2Proof.Laws.EncodedLength.styZp (zp : Sys2Proof.Byte) : Sys2Proof.Laws.EncodedLength.Statement (.styZp zp) :=
  fun _ => ⟨_, _, rfl, rfl⟩

theorem Sys2Proof.Laws.EncodedLength.styAbs (addr : Sys2Proof.Word) : Sys2Proof.Laws.EncodedLength.Statement (.styAbs addr) :=
  fun _ => ⟨_, _, rfl, rfl⟩

theorem Sys2Proof.Laws.EncodedLength.styZpX (zp : Sys2Proof.Byte) : Sys2Proof.Laws.EncodedLength.Statement (.styZpX zp) :=
  fun _ => ⟨_, _, rfl, rfl⟩

theorem Sys2Proof.Laws.EncodedLength.tax : Sys2Proof.Laws.EncodedLength.Statement .tax :=
  fun _ => ⟨_, _, rfl, rfl⟩

theorem Sys2Proof.Laws.EncodedLength.tay : Sys2Proof.Laws.EncodedLength.Statement .tay :=
  fun _ => ⟨_, _, rfl, rfl⟩

theorem Sys2Proof.Laws.EncodedLength.txa : Sys2Proof.Laws.EncodedLength.Statement .txa :=
  fun _ => ⟨_, _, rfl, rfl⟩

theorem Sys2Proof.Laws.EncodedLength.tya : Sys2Proof.Laws.EncodedLength.Statement .tya :=
  fun _ => ⟨_, _, rfl, rfl⟩

theorem Sys2Proof.Laws.EncodedLength.tsx : Sys2Proof.Laws.EncodedLength.Statement .tsx :=
  fun _ => ⟨_, _, rfl, rfl⟩

theorem Sys2Proof.Laws.EncodedLength.txs : Sys2Proof.Laws.EncodedLength.Statement .txs :=
  fun _ => ⟨_, _, rfl, rfl⟩

theorem Sys2Proof.Laws.EncodedLength.clc : Sys2Proof.Laws.EncodedLength.Statement .clc :=
  fun _ => ⟨_, _, rfl, rfl⟩

theorem Sys2Proof.Laws.EncodedLength.sec : Sys2Proof.Laws.EncodedLength.Statement .sec :=
  fun _ => ⟨_, _, rfl, rfl⟩

theorem Sys2Proof.Laws.EncodedLength.cli : Sys2Proof.Laws.EncodedLength.Statement .cli :=
  fun _ => ⟨_, _, rfl, rfl⟩

theorem Sys2Proof.Laws.EncodedLength.sei : Sys2Proof.Laws.EncodedLength.Statement .sei :=
  fun _ => ⟨_, _, rfl, rfl⟩

theorem Sys2Proof.Laws.EncodedLength.clv : Sys2Proof.Laws.EncodedLength.Statement .clv :=
  fun _ => ⟨_, _, rfl, rfl⟩

theorem Sys2Proof.Laws.EncodedLength.cld : Sys2Proof.Laws.EncodedLength.Statement .cld :=
  fun _ => ⟨_, _, rfl, rfl⟩

theorem Sys2Proof.Laws.EncodedLength.sed : Sys2Proof.Laws.EncodedLength.Statement .sed :=
  fun _ => ⟨_, _, rfl, rfl⟩

theorem Sys2Proof.Laws.EncodedLength.nop : Sys2Proof.Laws.EncodedLength.Statement .nop :=
  fun _ => ⟨_, _, rfl, rfl⟩

theorem Sys2Proof.Laws.EncodedLength.unassigned (op : Sys2Proof.Byte) :
    Sys2Proof.Laws.EncodedLength.Statement (.unassigned op) := by
  have h : ∀ n : Fin 256, Sys2Proof.unassignedOpcodes.contains (BitVec.ofFin n) = true →
      Sys2Proof.opcodeLength (BitVec.ofFin n) = 1 := by decide +kernel
  exact fun hw => ⟨op, [], rfl, (h op.toFin hw).symm⟩
end

