-- ==== Sys2Proof/Laws/Step.lean ====
section
/-! SUPPORT. What fetching an instruction and one console step can do, each said once. -/

namespace Sys2Proof.Machine

/-! ## Fetching -/

/-- A fetch: one bus read at PC, then PC one on (R11). -/
theorem State.fetch_cases (s : State) :
    (∃ b s1, s.busRead s.pc = .ok (b, s1) ∧ s.fetch = .ok (b, s1.setPc (s.pc + 1))) ∨
    ∃ e, s.busRead s.pc = .error e ∧ s.fetch = .error e := by
  rw [State.fetch_eq]
  rcases h : s.busRead s.pc with e | ⟨b, s1⟩
  · exact .inr ⟨e, rfl, rfl⟩
  · exact .inl ⟨b, s1, rfl, rfl⟩

/-- What fetching leaves: all but PC, the PPU and the draw index. -/
theorem State.fetch_frame {s t : State} {b : Byte} (h : s.fetch = .ok (b, t)) : (s.setPc t.pc).Reads t := by
  rcases s.fetch_cases with ⟨b', s1, hb, hf⟩ | ⟨e, -, hf⟩
  · rw [hf] at h
    cases h
    obtain ⟨h1, h2, h3, h4, h5, h6, h7, h8, h9, h10, h11, h12, h13⟩ := State.busRead_reads hb
    constructor <;> first | assumption | rfl
  · rw [hf] at h
    cases h

/-- A byte read with no side effect is fetched with none. -/
theorem State.fetch_of_peek {s : State} {b : Byte} (h : s.peek s.pc = some b) : s.fetch = .ok (b, s.setPc (s.pc + 1)) := by
  rw [State.fetch_eq, State.busRead_of_peek h]

theorem State.Reads.ofPc {s t u : State} (h : (s.setPc t.pc).Reads t) (k : (t.setPc u.pc).Reads u) :
    (s.setPc u.pc).Reads u := by
  obtain ⟨h1, h2, h3, h4, h5, h6, h7, h8, h9, h10, h11, h12, h13⟩ := h
  obtain ⟨k1, k2, k3, k4, k5, k6, k7, k8, k9, k10, k11, k12, k13⟩ := k
  constructor
  · exact k1.trans h1
  · exact k2.trans h2
  · exact k3.trans h3
  · exact k4.trans h4
  · exact k5
  · exact k6.trans h6
  · exact k7.trans h7
  · exact k8.trans h8
  · exact k9.trans h9
  · exact k10.trans h10
  · exact k11.trans h11
  · exact k12.trans h12
  · exact k13.trans h13

/-- What fetching an instruction can do: answer with all but PC, the PPU and the draw index as they were, or fault at the bus
read of one of its bytes, from a state that differs in no more (R134). The PPU comes from bus reads alone: what every bus read keeps of
it, the fetch keeps. -/
theorem State.fetchInstr_cases {P : Ppu → Prop} (s : State) (start : P s.ppu)
    (keep : ∀ (u v : State) b (addr : Word), u.busRead addr = .ok (b, v) → P u.ppu → P v.ppu) :
    (∃ i t, s.fetchInstr = .ok (i, t) ∧ (s.setPc t.pc).Reads t ∧ P t.ppu) ∨
    ∃ (e : Fault) (u : State) (k : Nat), s.fetchInstr = .error e ∧ (s.setPc u.pc).Reads u ∧
      u.pc = s.pc + BitVec.ofNat 16 k ∧ k < 3 ∧ u.busRead u.pc = .error e := by
  have one : ∀ u : State, P u.ppu →
      (∃ b v, u.fetch = .ok (b, v) ∧ (u.setPc v.pc).Reads v ∧ P v.ppu ∧ v.pc = u.pc + 1) ∨
      ∃ e, u.fetch = .error e ∧ u.busRead u.pc = .error e := by
    intro u hu
    rcases u.fetch_cases with ⟨b, v, hb, hf⟩ | ⟨e, hb, hf⟩
    · exact .inl ⟨b, _, hf, State.fetch_frame hf, keep u v b u.pc hb hu, rfl⟩
    · exact .inr ⟨e, hf, hb⟩
  unfold State.fetchInstr
  rcases one s start with ⟨op, s1, h1, r1, p1, c1⟩ | ⟨e, h1, hb⟩
  · simp only [h1, bind, Except.bind]
    cases lookup op with
    | f1 i => exact .inl ⟨i, s1, rfl, r1, p1⟩
    | f2 build =>
      rcases one s1 p1 with ⟨b1, s2, h2, r2, p2, -⟩ | ⟨e, h2, hb⟩
      · exact .inl ⟨build b1, s2, by simp only [h2]; rfl, r1.ofPc r2, p2⟩
      · exact .inr ⟨e, s1, 1, by simp only [h2], r1, c1, by omega, hb⟩
    | f3 build =>
      rcases one s1 p1 with ⟨lo, s2, h2, r2, p2, c2⟩ | ⟨e, h2, hb⟩
      · rcases one s2 p2 with ⟨hi, s3, h3, r3, p3, -⟩ | ⟨e, h3, hb⟩
        · exact .inl ⟨build (wordOf hi lo), s3, by simp only [h2, h3]; rfl, (r1.ofPc r2).ofPc r3, p3⟩
        · exact .inr ⟨e, s2, 2, by simp only [h2, h3], r1.ofPc r2, by rw [c2, c1, BitVec.add_assoc]; rfl, by omega, hb⟩
      · exact .inr ⟨e, s1, 1, by simp only [h2], r1, c1, by omega, hb⟩
  · exact .inr ⟨e, s, 0, by simp only [h1, bind, Except.bind], State.Reads.refl s, (BitVec.add_zero _).symm, by omega, hb⟩

/-! ## The step -/

/-- Taking an NMI or an IRQ always answers (R305). -/
theorem interruptEntry_eq (s : State) {vector : Word} (h : 0x8000 ≤ vector.toNat) (k : 0x8000 ≤ (vector + 1).toNat) :
    interruptEntry vector s = .next (((((s.setRam
      (((s.ram.write (0x100 + s.sp.toNat) (hiByte s.pc)).write (0x100 + (s.sp - 1).toNat) (loByte s.pc)).write
        (0x100 + (s.sp - 2).toNat) (s.flags.pack false))).setSp (s.sp - 3)).setFlags { s.flags with i := true }).setPc
        (vectorWord s.cart vector)).addCycles 7) := by
  unfold interruptEntry
  rw [State.enterInterrupt_eq s _ _ h k]
  rfl

/-- `tickAfter` keeps the kind of outcome (R326). -/
theorem tickAfter_next {before t : State} {o : Host.Outcome State Fault Refusal} (h : tickAfter before o = .next t) :
    ∃ u, o = .next u ∧ t = u.tick (u.cyc - before.cyc) := by
  cases o <;> cases h
  exact ⟨_, rfl, rfl⟩

/-- What a tick leaves: all but the PPU and the NMI latch (R303). -/
theorem State.tick_eq (s : State) (n : Nat) :
    s.tick n = (s.setPpu (s.ppu.tick n).1).setNmiPending (s.nmiPending || (s.ppu.tick n).2) := rfl

/-- Where a next state comes from: an interrupt entry, or one fetched instruction, then the tick (R310, R326). -/
theorem step_next {s t : State} (h : step s = .next t) :
    s.faulted = none ∧ ∃ u, t = u.tick (u.cyc - s.cyc) ∧
      (interruptEntry nmiVector (s.setNmiPending false) = .next u ∨ interruptEntry irqVector s = .next u ∨
        ∃ i s1, s.fetchInstr = .ok (i, s1) ∧ exec i s1 = .next u) := by
  unfold step at h
  split at h
  · cases h
  · next hf =>
    refine ⟨hf, ?_⟩
    split at h
    · obtain ⟨u, hu, rfl⟩ := tickAfter_next h
      exact ⟨u, rfl, .inl hu⟩
    · split at h
      · obtain ⟨u, hu, rfl⟩ := tickAfter_next h
        exact ⟨u, rfl, .inr (.inl hu)⟩
      · split at h
        · next i s1 hi =>
          obtain ⟨u, hu, rfl⟩ := tickAfter_next h
          exact ⟨u, rfl, .inr (.inr ⟨i, s1, hi, hu⟩)⟩
        · cases h

/-- Where an instruction's fault comes from: its operand read, or a pointer byte of JMP indirect (R62, R133). -/
theorem exec_fault {i : Instr} {s : State} {e : Fault} (h : exec i s = .fault e) :
    ∃ (u : State) (addr : Word), s.Reads u ∧ u.busRead addr = .error e ∧
      ((∃ mode target, i.readMode = some mode ∧ s.resolve mode = .ok (target, s) ∧ addr = target.ea) ∨
        ∃ ptr, i = .jmpInd ptr ∧ (addr = ptr ∨ addr = ((ptr &&& 0xFF00) ||| ((ptr + 1) &&& 0x00FF)))) := by
  rcases exec_class i with ⟨mode, base, extra, f, -, arm, rd, -, -, -⟩ | ⟨imm, f, -, arm, -, -⟩ |
    ⟨mode, base, reg, -, arm, -, -, -, -⟩ | ⟨mode, base, f, -, arm, rd, -, -, -⟩ | ⟨f, -, -, arm, -, -⟩ |
    ⟨rel, flag, expected, -, arm, -, -⟩ | ⟨ptr, hi, arm⟩ | ⟨arm, -, -, -⟩
  · rw [arm] at h
    obtain ⟨target, ht, ⟨m, s1, -, k⟩ | ⟨r, hb, k⟩⟩ := readOp_cases mode base extra f s
    · rw [k] at h; cases h
    · rw [k] at h; cases h
      exact ⟨s, _, .refl s, hb, .inl ⟨mode, target, rd, ht, rfl⟩⟩
  · rw [arm] at h; cases h
  · rw [arm] at h
    obtain ⟨target, -, k⟩ := storeOp_eq mode base reg s
    rw [k] at h; cases h
  · rw [arm] at h
    obtain ⟨target, ht, ⟨m, s1, -, k⟩ | ⟨r, hb, k⟩⟩ := rmwOp_cases mode base f s
    · rw [k] at h; cases h
    · rw [k] at h; cases h
      exact ⟨s, _, .refl s, hb, .inl ⟨mode, target, rd, ht, rfl⟩⟩
  · rw [arm] at h; cases h
  · rw [arm] at h
    obtain ⟨pc, k, e', -⟩ := branchOp_next (flag s.flags) expected rel s
    rw [e'] at h; cases h
  · rw [arm] at h
    rcases jumpIndirect_cases ptr s with ⟨lo, s1, hi, s2, -, -, k⟩ | ⟨r, k, hb | ⟨lo, s1, h1, hb⟩⟩
    · rw [k] at h; cases h
    · rw [k] at h; cases h
      exact ⟨s, _, .refl s, hb, .inr ⟨ptr, ‹_›, .inl rfl⟩⟩
    · rw [k] at h; cases h
      exact ⟨s1, _, State.busRead_reads h1, hb, .inr ⟨ptr, ‹_›, .inr rfl⟩⟩
  · obtain ⟨t, e', -⟩ := arm s
    rw [e'] at h; cases h

/-- Where the fault of a step comes from, when the machine was not faulted: the fetch, or the instruction (R62, R326). -/
theorem step_fault {s : State} {e : Fault} (hf : s.faulted = none) (h : step s = .fault e) :
    s.nmiPending = false ∧ (s.irqLine && !s.flags.i) = false ∧
      (s.fetchInstr = .error e ∨ ∃ i s1, s.fetchInstr = .ok (i, s1) ∧ exec i s1 = .fault e) := by
  unfold step at h
  simp only [hf] at h
  split at h
  · rw [interruptEntry_eq _ (vector := nmiVector) (by decide) (by decide)] at h
    cases h
  · next hn =>
    split at h
    · rw [interruptEntry_eq _ (vector := irqVector) (by decide) (by decide)] at h
      cases h
    · next hi =>
      refine ⟨by simpa using hn, by simpa using hi, ?_⟩
      split at h
      · next i s1 hs =>
        refine .inr ⟨i, s1, hs, ?_⟩
        cases he : exec i s1 <;> simp [he, tickAfter] at h
        rw [h]
      · next r hs =>
        cases h
        exact .inl hs

/-! ## What every step keeps -/

/-- An interrupt entry as the stack operations it is made of (R218, R305). -/
theorem interruptEntry_pushes (s : State) {vector : Word} (h : 0x8000 ≤ vector.toNat) (k : 0x8000 ≤ (vector + 1).toNat) :
    interruptEntry vector s = .next (((((s.pushWord s.pc).push (s.flags.pack false)).setFlags
      { s.flags with i := true }).setPc (vectorWord s.cart vector)).addCycles 7) := by
  rw [interruptEntry_eq s h k, State.pushWord_eq, State.push_eq]
  simp only [State.setSp_sp, State.setSp_ram, State.setRam_ram, BitVec.sub_sub]
  rfl

/-- What bus reads and bus writes keep of the PPU and of RAM, every instruction keeps. -/
theorem exec_keeps {P : Ppu → Prop} {R : Memory → Prop} {i : Instr} {s t : State} (h : exec i s = .next t)
    (ppu : P s.ppu) (ram : R s.ram)
    (read : ∀ (u v : State) b (addr : Word), u.busRead addr = .ok (b, v) → P u.ppu → P v.ppu)
    (write : ∀ (u : State) (addr : Word) v, P u.ppu → P (u.busWrite addr v).ppu)
    (store : ∀ (u : State) (addr : Word) v, R u.ram → R (u.busWrite addr v).ram) : P t.ppu ∧ R t.ram := by
  have push : ∀ (u : State) b, P u.ppu ∧ R u.ram → P (u.push b).ppu ∧ R (u.push b).ram :=
    fun u b q => ⟨write u (stackAddr u.sp) b q.1, store u (stackAddr u.sp) b q.2⟩
  have pushWord : ∀ (u : State) w, P u.ppu ∧ R u.ram → P (u.pushWord w).ppu ∧ R (u.pushWord w).ram :=
    fun u w q => push (u.push (hiByte w)) (loByte w) (push u (hiByte w) q)
  rcases exec_class i with ⟨mode, base, extra, f, eff, arm, -, -, -, -⟩ | ⟨imm, f, eff, arm, -, -⟩ |
    ⟨mode, base, reg, src, arm, -, -, -, -⟩ | ⟨mode, base, f, eff, arm, -, -, -, -⟩ | ⟨f, eff, -, arm, -, -⟩ |
    ⟨rel, flag, expected, -, arm, -, -⟩ | ⟨ptr, -, arm⟩ | ⟨arm, -, -, -⟩
  · rw [arm] at h
    obtain ⟨target, m, s1, k, -, hb, hs, -, rfl⟩ := readOp_next h
    have h1 := read _ _ _ _ hb ppu
    have h2 : R s1.ram := hs.ram ▸ ram
    generalize i.operation = o at eff
    cases eff <;> exact ⟨h1, h2⟩
  · rw [arm] at h
    obtain rfl := immOp_next h
    generalize i.operation = o at eff
    cases eff <;> exact ⟨ppu, ram⟩
  · rw [arm] at h
    obtain ⟨target, -, rfl⟩ := storeOp_next h
    exact ⟨write _ _ _ ppu, store _ _ _ ram⟩
  · rw [arm] at h
    obtain ⟨target, m, s1, -, hb, hs, rfl⟩ := rmwOp_next h
    exact ⟨write _ _ _ (read _ _ _ _ hb ppu), store _ _ _ (hs.ram ▸ ram)⟩
  · rw [arm] at h
    obtain rfl := accOp_next h
    exact ⟨ppu, ram⟩
  · rw [arm] at h
    obtain ⟨pc, k, e, -⟩ := branchOp_next (flag s.flags) expected rel s
    rw [e] at h
    cases h
    exact ⟨ppu, ram⟩
  · rw [arm] at h
    obtain ⟨lo, s1, hi, s2, b1, b2, hs, rfl⟩ := jumpIndirect_next h
    have h1 : P s2.ppu := read s1 s2 hi _ b2 (read s s1 lo _ b1 ppu)
    have h2 : R s2.ram := hs.ram ▸ ram
    exact ⟨h1, h2⟩
  · obtain ⟨t', e, p⟩ := arm s
    rw [e] at h
    cases h
    have h0 : P s.ppu ∧ R s.ram := ⟨ppu, ram⟩
    generalize i.operation = o at p
    cases p
    case pha => simpa [State.addCycles] using push s s.a h0
    case php => simpa [State.addCycles] using push s (s.flags.pack true) h0
    case jsr => simpa [State.addCycles, callSubroutine] using pushWord s (s.pc - 1) h0
    case brk => simpa [State.addCycles] using push _ (s.flags.pack true) (pushWord s (s.pc + 1) h0)
    all_goals simpa [State.addCycles, setANZ, setXNZ, setYNZ, State.raiseAnomaly] using h0

/-- What bus reads, bus writes and ticks keep of the PPU, and bus writes of RAM, every step keeps. -/
theorem step_keeps {P : Ppu → Prop} {R : Memory → Prop} {s t : State} (h : step s = .next t)
    (ppu : P s.ppu) (ram : R s.ram)
    (read : ∀ (u v : State) b (addr : Word), u.busRead addr = .ok (b, v) → P u.ppu → P v.ppu)
    (write : ∀ (u : State) (addr : Word) v, P u.ppu → P (u.busWrite addr v).ppu)
    (store : ∀ (u : State) (addr : Word) v, R u.ram → R (u.busWrite addr v).ram)
    (tick : ∀ (p : Ppu) n, P p → P (p.tick n).1) : P t.ppu ∧ R t.ram := by
  have push : ∀ (u : State) b, P u.ppu ∧ R u.ram → P (u.push b).ppu ∧ R (u.push b).ram :=
    fun u b q => ⟨write u (stackAddr u.sp) b q.1, store u (stackAddr u.sp) b q.2⟩
  have pushWord : ∀ (u : State) w, P u.ppu ∧ R u.ram → P (u.pushWord w).ppu ∧ R (u.pushWord w).ram :=
    fun u w q => push (u.push (hiByte w)) (loByte w) (push u (hiByte w) q)
  have h0 : P s.ppu ∧ R s.ram := ⟨ppu, ram⟩
  obtain ⟨-, u, rfl, hu⟩ := step_next h
  suffices q : P u.ppu ∧ R u.ram from ⟨tick _ _ q.1, q.2⟩
  rcases hu with hu | hu | ⟨i, s1, hi, hu⟩
  · rw [interruptEntry_pushes _ (vector := nmiVector) (by decide) (by decide)] at hu
    cases hu
    have q := push _ (s.flags.pack false) (pushWord (s.setNmiPending false) s.pc h0)
    simpa [State.addCycles] using q
  · rw [interruptEntry_pushes _ (vector := irqVector) (by decide) (by decide)] at hu
    cases hu
    simpa [State.addCycles] using push _ (s.flags.pack false) (pushWord s s.pc h0)
  · rcases s.fetchInstr_cases ppu read with ⟨i', t', e, r, p⟩ | ⟨e', u', a, e, -⟩
    · rw [e] at hi
      cases hi
      exact exec_keeps hu p (r.ram ▸ ram) read write store
    · rw [e] at hi
      cases hi

end Sys2Proof.Machine
end

