-- ==== Sys2Proof/Tests/Slice0.lean ====
section
/-! SUPPORT. Small tests of the model. Expected results are the spec's own: the encodings of 30_encoding.md, and the examples
and vectors of 95_test_vectors.md, each cited by its section. -/

namespace Sys2Proof.Tests

open Sys2Proof.Machine

/-! ## Building states and reading results -/

/-- The vectors' start state (95_test_vectors.md section 0), with PRG bytes at 0x8000 and PC there. -/
def start (bytes : List Byte) : State :=
  { State.reset with pc := 0x8000, cart := { Cartridge.blank with prg := Memory.ofBytes 0 bytes } }

/-- The same, with RAM bytes. -/
def withRam (ram : Memory) (s : State) : State := { s with ram := ram }

/-- The same, with a status byte. -/
def withP (p : Byte) (s : State) : State := { s with flags := Flags.unpack p }

/-- The next state of an outcome, if it has one. -/
def nextOf : Host.Outcome State Fault Refusal → Option State
  | .next t => some t
  | .fault _ => none
  | .refused _ => none

theorem nextOf_isSome {o : Host.Outcome State Fault Refusal} (h : (nextOf o).isSome = true) : ∃ t, o = .next t := by
  cases o with
  | next t => exact ⟨t, rfl⟩
  | fault r => cases h
  | refused r => cases h

/-- Whether a bus access answers. -/
def answers {ε α : Type} : Except ε α → Bool
  | .ok _ => true
  | .error _ => false

theorem answers_ok {ε α : Type} {r : Except ε α} (h : answers r = true) : ∃ a, r = .ok a := by
  cases r with
  | ok a => exact ⟨a, rfl⟩
  | error e => cases h

/-- The fault of an outcome, if it is one. -/
def faultOf : Host.Outcome State Fault Refusal → Option Fault
  | .next _ => none
  | .fault r => some r
  | .refused _ => none

theorem faultOf_eq {o : Host.Outcome State Fault Refusal} {r : Fault} (h : faultOf o = some r) : o = .fault r := by
  cases o with
  | next t => cases h
  | fault r' => cases h; rfl
  | refused r' => cases h

/-- What one step makes of a state, seen through `f`. -/
def after {α : Type} (s : State) (f : State → α) : Option α := (nextOf (step s)).map f

/-- A status byte as the vectors write it: `PackP(0)`. -/
def p (t : State) : Byte := t.flags.pack false

/-! ## Well-formed and ill-formed instructions -/

/-- The one check (R102): a byte the table assigns is no unassigned opcode. -/
theorem test_wf_refuses_assigned_byte : (Instr.unassigned 0x69).wf = false := by decide

/-- The first and the last unassigned byte (R107). -/
theorem test_wf_unassigned : (Instr.unassigned 0x02).wf = true ∧ (Instr.unassigned 0xFF).wf = true := by decide

theorem test_wf_assigned : (Instr.adcImm 0xFF).wf = true ∧ (Instr.brk).wf = true := by decide

/-! ## Words written out from the encoding -/

/-- ADC is aaa = 011, cc = 01; absolute,Y is bbb = 110 (R104): 011 110 01. -/
theorem test_decode_arith :
    decode [0x79, 0x34, 0x12] = .ok (.adcAbsY 0x1234, []) ∧ encode (.adcAbsY 0x1234) = [0x79, 0x34, 0x12] :=
  ⟨rfl, rfl⟩

/-- SBC #: 111 010 01. -/
theorem test_decode_sbc :
    decode [0xE9, 0x01] = .ok (.sbcImm 0x01, []) ∧ encode (.sbcImm 0x01) = [0xE9, 0x01] :=
  ⟨rfl, rfl⟩

/-- CMP is aaa = 110, cc = 01; (zp),Y is bbb = 100: 110 100 01. -/
theorem test_decode_compare :
    decode [0xD1, 0x20] = .ok (.cmpIndY 0x20, []) ∧ encode (.cmpIndY 0x20) = [0xD1, 0x20] :=
  ⟨rfl, rfl⟩

/-- CPX absolute: 111 011 00. -/
theorem test_decode_cpx :
    decode [0xEC, 0x00, 0x02] = .ok (.cpxAbs 0x0200, []) ∧ encode (.cpxAbs 0x0200) = [0xEC, 0x00, 0x02] :=
  ⟨rfl, rfl⟩

/-- EOR is aaa = 010, cc = 01; zero page,X is bbb = 101: 010 101 01. -/
theorem test_decode_logic :
    decode [0x55, 0x10] = .ok (.eorZpX 0x10, []) ∧ encode (.eorZpX 0x10) = [0x55, 0x10] :=
  ⟨rfl, rfl⟩

/-- BIT zero page: 001 001 00. -/
theorem test_decode_bit :
    decode [0x24, 0x10] = .ok (.bitZp 0x10, []) ∧ encode (.bitZp 0x10) = [0x24, 0x10] :=
  ⟨rfl, rfl⟩

/-- ROL is aaa = 001, cc = 10; absolute,X is bbb = 111: 001 111 10. -/
theorem test_decode_shift :
    decode [0x3E, 0xFF, 0x12] = .ok (.rolAbsX 0x12FF, []) ∧ encode (.rolAbsX 0x12FF) = [0x3E, 0xFF, 0x12] :=
  ⟨rfl, rfl⟩

/-- LSR accumulator: 010 010 10. -/
theorem test_decode_accumulator :
    decode [0x4A] = .ok (.lsrAcc, []) ∧ encode (.lsrAcc) = [0x4A] :=
  ⟨rfl, rfl⟩

/-- DEC is aaa = 110, cc = 10; zero page is bbb = 001: 110 001 10. -/
theorem test_decode_incDec :
    decode [0xC6, 0x10] = .ok (.decZp 0x10, []) ∧ encode (.decZp 0x10) = [0xC6, 0x10] :=
  ⟨rfl, rfl⟩

/-- a branch is xx y 10000; BCC selects C (10) with y = 0: 10 0 10000. -/
theorem test_decode_branch :
    decode [0x90, 0x80] = .ok (.bcc 0x80, []) ∧ encode (.bcc 0x80) = [0x90, 0x80] :=
  ⟨rfl, rfl⟩

/-- PLP: 001 010 00. -/
theorem test_decode_stack :
    decode [0x28] = .ok (.plp, []) ∧ encode (.plp) = [0x28] :=
  ⟨rfl, rfl⟩

/-- JSR: 001 000 00, low byte first. -/
theorem test_decode_jump :
    decode [0x20, 0x00, 0x90] = .ok (.jsr 0x9000, []) ∧ encode (.jsr 0x9000) = [0x20, 0x00, 0x90] :=
  ⟨rfl, rfl⟩

/-- JMP indirect: 011 011 00. -/
theorem test_decode_jumpIndirect :
    decode [0x6C, 0xFF, 0x02] = .ok (.jmpInd 0x02FF, []) ∧ encode (.jmpInd 0x02FF) = [0x6C, 0xFF, 0x02] :=
  ⟨rfl, rfl⟩

/-- BRK: 000 000 00, one byte; the padding byte is not consumed. -/
theorem test_decode_interrupt :
    decode [0x00] = .ok (.brk, []) ∧ encode (.brk) = [0x00] :=
  ⟨rfl, rfl⟩

/-- LDX is aaa = 101, cc = 10; zero page,Y is bbb = 101: 101 101 10. -/
theorem test_decode_load :
    decode [0xB6, 0x10] = .ok (.ldxZpY 0x10, []) ∧ encode (.ldxZpY 0x10) = [0xB6, 0x10] :=
  ⟨rfl, rfl⟩

/-- LDY absolute,X: 101 111 00. -/
theorem test_decode_loadY :
    decode [0xBC, 0x00, 0x12] = .ok (.ldyAbsX 0x1200, []) ∧ encode (.ldyAbsX 0x1200) = [0xBC, 0x00, 0x12] :=
  ⟨rfl, rfl⟩

/-- STA is aaa = 100, cc = 01; (zp,X) is bbb = 000: 100 000 01. -/
theorem test_decode_store :
    decode [0x81, 0x20] = .ok (.staIndX 0x20, []) ∧ encode (.staIndX 0x20) = [0x81, 0x20] :=
  ⟨rfl, rfl⟩

/-- TSX: 101 110 10. -/
theorem test_decode_transfer :
    decode [0xBA] = .ok (.tsx, []) ∧ encode (.tsx) = [0xBA] :=
  ⟨rfl, rfl⟩

/-- CLV: 101 110 00. -/
theorem test_decode_flag :
    decode [0xB8] = .ok (.clv, []) ∧ encode (.clv) = [0xB8] :=
  ⟨rfl, rfl⟩

/-- JAM byte 0x02, in R107. -/
theorem test_decode_unassigned :
    decode [0x02] = .ok (.unassigned 0x02, []) ∧ encode (.unassigned 0x02) = [0x02] :=
  ⟨rfl, rfl⟩

/-- The table's own numbering: the first byte is bits 7 to 0, the second bits 15 to 8. -/
theorem test_decodeTableWord :
    decodeTableWord 24 0x12346D = some (.adcAbs 0x1234) ∧ decodeTableWord 8 0x69 = some (.adcImm 0) := by decide

/-- The placed instruction is what the first step runs: `INX` from reset. -/
theorem test_withFetchWord : after (State.reset.withFetchWord 8 0xE8) (fun t => (t.x, t.pc, t.cyc)) = some (1, 1, 2) := by
  decide

/-! ## One step each, by the vectors of 95_test_vectors.md -/

/-- L1.2, the source's example. -/
theorem test_adc_overflow :
    after (withP 0x24 { start [0x69, 0x50] with a := 0x50 })
      (fun t => (t.a, p t, t.pc, t.cyc)) = some
        (0xA0, 0xE4, 0x8002, 2) := by decide

/-- 2.1: 0xFF + 0xFF + 1. -/
theorem test_adc_carry_in :
    after (withP 0x25 { start [0x69, 0xFF] with a := 0xFF })
      (fun t => (t.a, p t, t.pc, t.cyc)) = some
        (0xFF, 0xA5, 0x8002, 2) := by decide

/-- 2.1: positive less negative. -/
theorem test_sbc_overflow :
    after (withP 0x25 { start [0xE9, 0xB0] with a := 0x50 })
      (fun t => (t.a, p t, t.pc, t.cyc)) = some
        (0xA0, 0xE4, 0x8002, 2) := by decide

/-- 2.1: C = 0 subtracts one more. -/
theorem test_sbc_borrow :
    after (withP 0x24 { start [0xE9, 0x00] with a := 0x00 })
      (fun t => (t.a, p t, t.pc, t.cyc)) = some
        (0xFF, 0xA4, 0x8002, 2) := by decide

/-- 2.2. -/
theorem test_cmp_equal :
    after (withP 0x24 { start [0xC9, 0x40] with a := 0x40 })
      (fun t => (t.a, p t, t.pc, t.cyc)) = some
        (0x40, 0x27, 0x8002, 2) := by decide

/-- 2.2: unsigned, N from the difference. -/
theorem test_cmp_less :
    after (withP 0x24 { start [0xC9, 0x80] with a := 0x00 })
      (fun t => (t.a, p t, t.pc, t.cyc)) = some
        (0x00, 0xA4, 0x8002, 2) := by decide

/-- 2.2. -/
theorem test_and_zero :
    after (withP 0x24 { start [0x29, 0x0F] with a := 0xF0 })
      (fun t => (t.a, p t, t.pc, t.cyc)) = some
        (0x00, 0x26, 0x8002, 2) := by decide

/-- 2.2. -/
theorem test_ora_negative :
    after (withP 0x24 { start [0x09, 0x00] with a := 0x80 })
      (fun t => (t.a, p t, t.pc, t.cyc)) = some
        (0x80, 0xA4, 0x8002, 2) := by decide

/-- 2.2. -/
theorem test_eor_zero :
    after (withP 0x24 { start [0x49, 0xFF] with a := 0xFF })
      (fun t => (t.a, p t, t.pc, t.cyc)) = some
        (0x00, 0x26, 0x8002, 2) := by decide

/-- 2.2: X = 0 against 0xFF. -/
theorem test_cpx_less : after (start [0xE0, 0xFF]) p = some 0x24 := by decide

/-- 2.2. -/
theorem test_cpy_greater : after ({ start [0xC0, 0x00] with y := 0x80 }) p = some 0xA5 := by decide

/-- 2.2. -/
theorem test_bit_sets :
    after (withRam [(0x10, 0xC0)] (start [0x24, 0x10]))
      (fun t => (t.a, p t, t.cyc)) = some
        (0x00, 0xE6, 3) := by decide

/-- 2.2. -/
theorem test_bit_clears :
    after (withP 0xE4 (withRam [(0x10, 0x3F)] { start [0x24, 0x10] with a := 1 }))
      p = some
        0x24 := by decide

/-- 2.3. -/
theorem test_asl_acc :
    after (withP 0x24 { start [0x0A] with a := 0x80 })
      (fun t => (t.a, p t, t.cyc)) = some
        (0x00, 0x27, 2) := by decide

/-- 2.3. -/
theorem test_lsr_acc :
    after (withP 0x24 { start [0x4A] with a := 0x01 })
      (fun t => (t.a, p t, t.cyc)) = some
        (0x00, 0x27, 2) := by decide

/-- 2.3. -/
theorem test_rol_acc :
    after (withP 0x25 { start [0x2A] with a := 0x80 })
      (fun t => (t.a, p t, t.cyc)) = some
        (0x01, 0x25, 2) := by decide

/-- 2.3. -/
theorem test_ror_acc :
    after (withP 0x25 { start [0x6A] with a := 0x01 })
      (fun t => (t.a, p t, t.cyc)) = some
        (0x80, 0xA5, 2) := by decide

/-- 2.3. -/
theorem test_asl_zp :
    after (withRam [(0x10, 0x41)] (start [0x06, 0x10]))
      (fun t => (t.ram.read 0x10, p t, t.cyc)) = some
        (0x82, 0xA4, 5) := by decide

/-- 2.3: the byte becomes 0, which is not listed. -/
theorem test_inc_zp_wraps :
    after (withRam [(0x10, 0xFF)] (start [0xE6, 0x10]))
      (fun t => (t.ram, p t, t.cyc)) = some
        ([], 0x26, 5) := by decide

/-- 2.3. -/
theorem test_dec_zp_wraps :
    after (start [0xC6, 0x10])
      (fun t => (t.ram, p t, t.cyc)) = some
        ([(0x10, 0xFF)], 0xA4, 5) := by decide

/-- 2.3: 0x1800 is RAM 0x0000; no page-cross cycle. -/
theorem test_inc_absX_mirror :
    after (withRam [(0, 0x7F)] { start [0xFE, 0xFF, 0x17] with x := 1 })
      (fun t => (t.ram, p t, t.cyc)) = some
        ([(0, 0x80)], 0xA4, 7) := by decide

/-- 2.3. -/
theorem test_inx_wraps : after ({ start [0xE8] with x := 0xFF }) (fun t => (t.x, p t)) = some (0x00, 0x26) := by decide

/-- 2.3. -/
theorem test_dey_wraps : after (start [0x88]) (fun t => (t.y, p t)) = some (0xFF, 0xA4) := by decide

/-- 2.4. -/
theorem test_lda_zpX_wraps :
    after (withRam [(0x10, 0x55)] { start [0xB5, 0xF0] with x := 0x20 })
      (fun t => (t.a, t.cyc)) = some
        (0x55, 4) := by decide

/-- 2.4. -/
theorem test_lda_indX_pointer_wraps :
    after (withRam [(0, 0x02), (0xFF, 0x34), (0x234, 0x66)] (start [0xA1, 0xFF]))
      (fun t => (t.a, t.cyc)) = some
        (0x66, 6) := by decide

/-- 2.4. -/
theorem test_lda_indY_page_cross :
    after (withRam [(0x20, 0xFF), (0x21, 0x02), (0x300, 0x99)] { start [0xB1, 0x20] with y := 1 })
      (fun t => (t.a, t.cyc)) = some
        (0x99, 6) := by decide

/-- L1.5, the source's example. -/
theorem test_lda_absX_page_cross : after ({ start [0xBD, 0xFF, 0x12] with x := 1 }) State.cyc = some 5 := by decide

/-- L1.5, the source's example. -/
theorem test_lda_absX_same_page : after ({ start [0xBD, 0x00, 0x12] with x := 1 }) State.cyc = some 4 := by decide

/-- 2.4. -/
theorem test_sta_absX_no_extra :
    after ({ start [0x9D, 0xFF, 0x12] with x := 1, a := 0xAB })
      (fun t => (t.ram, t.cyc, p t)) = some
        ([(0x300, 0xAB)], 5, 0x24) := by decide

/-- L1.1 and 2.7: a store changes no flag. -/
theorem test_stx_zp :
    after ({ start [0x86, 0x20] with x := 0x80 })
      (fun t => (t.ram, t.cyc, p t)) = some
        ([(0x20, 0x80)], 3, 0x24) := by decide

/-- L1.1 and 2.7. -/
theorem test_sty_zp :
    after ({ start [0x84, 0x20] with y := 0x80 })
      (fun t => (t.ram, t.cyc, p t)) = some
        ([(0x20, 0x80)], 3, 0x24) := by decide

/-- 2.4. -/
theorem test_jmp_ind_page_wrap :
    after (withRam [(0, 0x12), (0xFF, 0x34), (0x100, 0x56)] (start [0x6C, 0xFF, 0x10]))
      (fun t => (t.pc, t.cyc)) = some
        (0x1234, 5) := by decide

/-- P1's last instruction; 3 cycles by R106. -/
theorem test_jmp_abs : after (start [0x4C, 0x0D, 0x80]) (fun t => (t.pc, t.cyc)) = some (0x800D, 3) := by decide

/-- 2.5. -/
theorem test_bne_taken : after (withP 0x24 (start [0xD0, 0x02])) (fun t => (t.pc, t.cyc)) = some (0x8004, 3) := by decide

/-- 2.5. -/
theorem test_bne_not_taken : after (withP 0x26 (start [0xD0, 0x02])) (fun t => (t.pc, t.cyc)) = some (0x8002, 2) := by decide

/-- 2.5. -/
theorem test_beq_across_page :
    after (withP 0x26 { start [] with pc := 0x80FD, cart := { Cartridge.blank with prg := Memory.ofBytes 0xFD [0xF0, 0x01] } })
      (fun t => (t.pc, t.cyc)) = some
        (0x8100, 4) := by decide

/-- 2.5. -/
theorem test_beq_next_page :
    after (withP 0x26 { start [] with pc := 0x80FE, cart := { Cartridge.blank with prg := Memory.ofBytes 0xFE [0xF0, 0x00] } })
      (fun t => (t.pc, t.cyc)) = some
        (0x8100, 3) := by decide

/-- 2.5. -/
theorem test_bcc_backward : after (withP 0x24 (start [0x90, 0x80])) (fun t => (t.pc, t.cyc)) = some (0x7F82, 4) := by decide

/-- 2.5. -/
theorem test_bmi_self :
    after (withP 0xA4 { start [] with pc := 0x8010, cart := { Cartridge.blank with prg := Memory.ofBytes 0x10 [0x30, 0xFE] } })
      (fun t => (t.pc, t.cyc)) = some
        (0x8010, 3) := by decide

/-- 2.5. -/
theorem test_bvs_forward : after (withP 0x64 (start [0x70, 0x7F])) (fun t => (t.pc, t.cyc)) = some (0x8081, 3) := by decide

/-- 2.5. -/
theorem test_bpl_not_taken : after (withP 0xA4 (start [0x10, 0x05])) (fun t => (t.pc, t.cyc)) = some (0x8002, 2) := by decide

/-- 2.5. -/
theorem test_bcs_taken : after (withP 0x25 (start [0xB0, 0x05])) (fun t => (t.pc, t.cyc)) = some (0x8007, 3) := by decide

/-- 2.5. -/
theorem test_bvc_taken : after (withP 0x24 (start [0x50, 0x05])) (fun t => (t.pc, t.cyc)) = some (0x8007, 3) := by decide

/-- 2.6. -/
theorem test_pha_wraps :
    after ({ start [0x48] with sp := 0, a := 0x5A })
      (fun t => (t.ram, t.sp, t.cyc)) = some
        ([(0x100, 0x5A)], 0xFF, 3) := by decide

/-- 2.6. -/
theorem test_pla_wraps :
    after ({ start [0x68] with sp := 0xFF, a := 0x33 })
      (fun t => (t.a, t.sp, p t, t.cyc)) = some
        (0x00, 0x00, 0x26, 4) := by decide

/-- 2.6: B and bit 5 pushed as 1; P unchanged (0xC3 with bit 5 shown is 0xE3). -/
theorem test_php :
    after (withP 0xC3 (start [0x08]))
      (fun t => (t.ram, t.sp, p t, t.cyc)) = some
        ([(0x1FD, 0xF3)], 0xFC, 0xE3, 3) := by decide

/-- 2.6. -/
theorem test_plp :
    after (withRam [(0x1FE, 0xFF)] (start [0x28]))
      (fun t => (t.sp, p t, t.cyc)) = some
        (0xFE, 0xEF, 4) := by decide

/-- 2.6. -/
theorem test_jsr :
    after ({ start [0x20, 0x00, 0x90] with sp := 0xFF })
      (fun t => (t.ram, t.sp, t.pc, t.cyc)) = some
        ([(0x1FE, 0x02), (0x1FF, 0x80)], 0xFD, 0x9000, 6) := by decide

/-- L1.3, the second half. -/
theorem test_rts :
    after (withRam [(0x1FC, 0x02), (0x1FD, 0x80)] { start [0x60] with sp := 0xFB })
      (fun t => (t.sp, t.pc, t.cyc)) = some
        (0xFD, 0x8003, 6) := by decide

/-- L1.4. -/
theorem test_brk :
    after (withP 0xE3 { start [0x00, 0xEA] with sp := 0xFF, cart := Cartridge.mk .one [(1, 0xEA), (0x3FFF, 0x91)] 1 [] })
      (fun t => (t.ram, t.sp, p t, t.pc, t.cyc)) = some
        ([(0x1FD, 0xF3), (0x1FE, 0x02), (0x1FF, 0x80)], 0xFC, 0xE7, 0x9100, 7) := by decide

/-- L1.4. -/
theorem test_rti :
    after (withP 0xE7 (withRam [(0x1FD, 0xF3), (0x1FE, 0x02), (0x1FF, 0x80)] { start [0x40] with sp := 0xFC }))
      (fun t => (t.sp, p t, t.pc, t.cyc)) = some
        (0xFF, 0xE3, 0x8002, 6) := by decide

/-- L1.1. -/
theorem test_lda_imm :
    after ({ start [0xA9, 0x10] with a := 0 })
      (fun t => (t.a, p t, t.cyc)) = some
        (0x10, 0x24, 2) := by decide

/-- P3: N = 1 from LDX #$FF. -/
theorem test_ldx_imm_negative : after (start [0xA2, 0xFF]) (fun t => (t.x, p t)) = some (0xFF, 0xA4) := by decide

/-- 2.7. -/
theorem test_ldy_imm_zero :
    after ({ start [0xA0, 0x00] with y := 0x55 })
      (fun t => (t.y, p t, t.cyc)) = some
        (0x00, 0x26, 2) := by decide

/-- 2.6: no flag. -/
theorem test_txs :
    after ({ start [0x9A] with x := 0, sp := 0xFD })
      (fun t => (t.sp, p t, t.cyc)) = some
        (0x00, 0x24, 2) := by decide

/-- 2.6. -/
theorem test_tsx : after ({ start [0xBA] with sp := 0x80 }) (fun t => (t.x, p t)) = some (0x80, 0xA4) := by decide

/-- 2.7. -/
theorem test_clv : after (withP 0x64 (start [0xB8])) p = some 0x24 := by decide

/-- 2.7. -/
theorem test_sed : after (start [0xF8]) p = some 0x2C := by decide

/-- 2.7. -/
theorem test_cli : after (start [0x58]) p = some 0x20 := by decide

/-- 2.7. -/
theorem test_nop : after (start [0xEA]) (fun t => (p t, t.pc, t.cyc)) = some (0x24, 0x8001, 2) := by decide

/-- 2.8. -/
theorem test_jam_byte :
    after (start [0x02])
      (fun t => (t.pc, t.cyc, t.anomalies, p t)) = some
        (0x8001, 1, [(0x8000, 0x02)], 0x24) := by decide

/-- 2.8. -/
theorem test_two_byte_nop_byte :
    after (start [0x80])
      (fun t => (t.pc, t.cyc, t.anomalies)) = some
        (0x8001, 1, [(0x8000, 0x80)]) := by decide

/-- By R236: X takes A, N and Z from it. -/
theorem test_tax : after ({ start [0xAA] with a := 0x80 }) (fun t => (t.x, p t, t.cyc)) = some (0x80, 0xA4, 2) := by decide

/-- By R237. -/
theorem test_tay : after ({ start [0xA8] with y := 0x55 }) (fun t => (t.y, p t, t.cyc)) = some (0x00, 0x26, 2) := by decide

/-- By R238. -/
theorem test_txa : after ({ start [0x8A] with x := 0x80 }) (fun t => (t.a, p t, t.cyc)) = some (0x80, 0xA4, 2) := by decide

/-- By R239. -/
theorem test_tya : after ({ start [0x98] with a := 0x55 }) (fun t => (t.a, p t, t.cyc)) = some (0x00, 0x26, 2) := by decide

/-- By R188: N from the result, V unchanged. -/
theorem test_iny : after ({ start [0xC8] with y := 0x7F }) (fun t => (t.y, p t, t.cyc)) = some (0x80, 0xA4, 2) := by decide

/-- By R189. -/
theorem test_dex : after ({ start [0xCA] with x := 0x01 }) (fun t => (t.x, p t, t.cyc)) = some (0x00, 0x26, 2) := by decide

/-- By the flag rules: C alone. -/
theorem test_clc : after (withP 0xE7 (start [0x18])) p = some 0xE6 := by decide

/-- By the flag rules: C alone. -/
theorem test_sec : after (withP 0xE6 (start [0x38])) p = some 0xE7 := by decide

/-- By the flag rules: I alone. -/
theorem test_sei : after (withP 0x20 (start [0x78])) p = some 0x24 := by decide

/-- By the flag rules: D alone. -/
theorem test_cld : after (withP 0x2C (start [0xD8])) p = some 0x24 := by decide

/-! ## The console step and the interrupts (95_test_vectors.md 2.9) -/

/-- A machine about to run an NOP at 0x8000, with the NMI vector 0x9000 and the IRQ vector 0x9100. -/
def atNop : State :=
  { start [] with cart := { Cartridge.blank with prg := [(0, 0xEA), (0x3FFB, 0x90), (0x3FFF, 0x91)] }, sp := 0xFF }

/-- 2.9, first row. -/
theorem test_nmi_entry :
    after (withP 0xE3 { atNop with nmiPending := true }) (fun t => (t.ram, t.sp, p t, t.pc, t.cyc)) =
      some ([(0x1FD, 0xE3), (0x1FF, 0x80)], 0xFC, 0xE7, 0x9000, 7) := by decide

/-- 2.9, first row: the latch is cleared. -/
theorem test_nmi_latch_clears : after { atNop with nmiPending := true } State.nmiPending = some false := by decide

/-- 2.9, second row. -/
theorem test_irq_entry :
    after (withP 0x20 { atNop with irqLine := true }) (fun t => (t.ram, t.sp, p t, t.pc, t.cyc)) =
      some ([(0x1FD, 0x20), (0x1FF, 0x80)], 0xFC, 0x24, 0x9100, 7) := by decide

/-- 2.9, third row: I masks IRQ_LINE. -/
theorem test_irq_masked : after { atNop with irqLine := true } (fun t => (t.pc, t.cyc)) = some (0x8001, 2) := by decide

/-- 2.9, fourth row: the NMI goes first. -/
theorem test_nmi_before_irq :
    after (withP 0x20 { atNop with nmiPending := true, irqLine := true }) (fun t => (t.pc, p t)) =
      some (0x9000, 0x24) := by decide

/-- L1.6, from the position its first call ends at: the edge is reported once. -/
theorem test_tick_edge :
    let u := { Ppu.reset with ctrl := 0x80, scanline := 240, dot := 340 }
    ((u.tick 1).1.scanline, (u.tick 1).1.dot, (u.tick 1).1.status, (u.tick 1).2, ((u.tick 1).1.tick 1).2) =
      (241, 2, 0x80, true, false) := by decide

/-- L1.6: with nmi_enable clear vblank is set and there is no edge. -/
theorem test_tick_no_edge :
    let u := { Ppu.reset with scanline := 240, dot := 340 }
    ((u.tick 1).1.status, (u.tick 1).2) = (0x80, false) := by decide

/-! ## Reset and load (95_test_vectors.md 2.10, L1.8, L1.9) -/

/-- 2.10, first row. -/
theorem test_reset_cpu :
    (nextOf (systemReset (withP 0x20 { State.reset with
      sp := 0, nmiPending := true, cyc := 5000,
      cart := { Cartridge.blank with prg := [(0x3FFC, 0x23), (0x3FFD, 0xC1)] } }))).map
      (fun t => (t.sp, p t, t.pc, t.cyc, t.nmiPending)) = some (0xFD, 0x24, 0xC123, 0, false) := by decide

/-- 2.10, second row. -/
theorem test_reset_ppu :
    ({ Ppu.reset with
      ctrl := 0x80, mask := 0x18, w := true, readBuf := 0x5A, oddFrame := true, status := 0x80,
      scanline := 100 } : Ppu).doReset = { Ppu.reset with status := 0x80, scanline := 100 } := by decide

/-- The power-on draws of the vectors: all 0. -/
def zeroDraws : PowerOn :=
  { a := 0, x := 0, y := 0, sp := 0, pc := 0,
    flags := { n := false, v := false, d := false, i := false, z := false, c := false }, ram := [], cyc := 0,
    ppu := Ppu.reset }

/-- `State.reset` is power-on with every draw 0 and the blank cartridge (section 0, log 1 to 4). -/
theorem test_powerOn_blank : powerOn zeroDraws Cartridge.blank = .next State.reset := rfl

/-- L1.9: the start state of a cartridge with 0xC000 at PRG 0x3FFC. -/
theorem test_powerOn_vector :
    (nextOf (powerOn zeroDraws { Cartridge.blank with chrUnits := 0, prg := [(0x3FFD, 0xC0)] })).map
      (fun t => (t.pc, t.cyc, t.flags.i, t.sp)) = some (0xC000, 0, true, 0xFD) := by decide

/-- L1.8. -/
theorem test_prg_offsets :
    let two := { Cartridge.blank with prgBanks := .two }
    (Cartridge.blank.prgOffset 0x8000, Cartridge.blank.prgOffset 0xC000, Cartridge.blank.prgOffset 0xFFFC,
      two.prgOffset 0xC000, two.prgOffset 0xFFFC) = (0, 0, 0x3FFC, 0x4000, 0x7FFC) := by decide

/-- R365: a file shorter than its header, and one without the magic. -/
theorem test_load_errors :
    answers (loadCartridge [0x4E, 0x45, 0x53]) = false ∧ answers (loadCartridge (List.replicate 16 0)) = false := by decide

/-- L1.9's file: one PRG unit, no CHR, no trainer. -/
def smallFile : List Byte := [0x4E, 0x45, 0x53, 0x1A, 1, 0, 0, 0, 0, 0, 0, 0, 0, 0, 0, 0] ++ List.replicate 16384 0

theorem load_of_length {rest : List Byte} (h : rest.length = 16384) :
    loadCartridge ([0x4E, 0x45, 0x53, 0x1A, 1, 0, 0, 0, 0, 0, 0, 0, 0, 0, 0, 0] ++ rest) =
      .ok (cartridgeOf .one 1 0 rest) := by
  simp [loadCartridge, mapperId, trainerLength, prgBanksOf, h]

/-- L1.9: the file loads. -/
theorem test_load_small : ∃ c, loadCartridge smallFile = .ok c ∧ c.prgBanks = .one ∧ c.chrUnits = 0 :=
  ⟨_, load_of_length List.length_replicate, rfl, rfl⟩

/-! ## The PPU registers (95_test_vectors.md 2.11, L1.7) -/

/-- A machine past the warm-up. -/
def warm (u : Ppu) : State := { State.reset with cyc := 40000, ppu := u }

/-- 2.11: the last locked cyc and the first open one. -/
theorem test_warm_up :
    (({ State.reset with cyc := 29658 }).busWrite 0x2000 0x80).ppu.ctrl = 0 ∧
    (({ State.reset with cyc := 29659 }).busWrite 0x2000 0x80).ppu.ctrl = 0x80 := by decide

/-- 2.11: OAMADDR is not locked out. -/
theorem test_oamAddr_in_warm_up : (State.reset.busWrite 0x2003 0x10).ppu.oamAddr = 0x10 := by decide

/-- 2.11: NMI enabled during vblank is reported by the next tick. -/
theorem test_enable_in_vblank :
    (((warm { Ppu.reset with scanline := 241, dot := 10, status := 0x80 }).busWrite 0x2000 0x80).ppu.tick 1).2 = true := by
  decide

/-- The state after a bus read, if it answers. -/
def readAt (s : State) (addr : Word) : State :=
  match s.busRead addr with
  | .ok (_, t) => t
  | .error _ => s

/-- 2.11: a PPUSTATUS read in the race window suppresses the vblank set and its edge. -/
theorem test_race_suppresses :
    let u := ((readAt (warm { Ppu.reset with ctrl := 0x80, scanline := 240, dot := 340 }) 0x2002).ppu.tick 2)
    (u.1.status, u.1.suppress, u.2) = (0, false, false) := by decide

/-- 2.11: one dot before the window it does not. -/
theorem test_race_misses :
    let u := ((readAt (warm { Ppu.reset with ctrl := 0x80, scanline := 240, dot := 339 }) 0x2002).ppu.tick 2)
    (u.1.status, u.2) = (0x80, true) := by decide

/-- L1.7: the toggle read back to the first write; v commits on the last byte only. -/
theorem test_toggle_reset :
    let s1 := (warm Ppu.reset).busWrite 0x2006 0x21
    let s2 := (readAt s1 0x2002).busWrite 0x2006 0x08
    let s3 := s2.busWrite 0x2006 0x00
    (s1.ppu.t, s2.ppu.t, s2.ppu.v, s2.ppu.w, s3.ppu.v) = (0x2100, 0x0800, 0, true, 0x0800) := by decide

/-- 2.11: PPUSCROLL 7D then 5E. -/
theorem test_scroll :
    let s1 := (warm Ppu.reset).busWrite 0x2005 0x7D
    let s2 := s1.busWrite 0x2005 0x5E
    (s1.ppu.t, s1.ppu.fineX, s1.ppu.w, s2.ppu.t, s2.ppu.w) = (0x000F, 5, true, 0x616F, false) := by decide

/-- 2.11: PPUDATA increments by 32. -/
theorem test_data_increment : ((warm { Ppu.reset with v := 0x2400, ctrl := 4 }).busWrite 0x2007 0x11).ppu.v = 0x2420 := by
  decide

/-- 2.11: OAMDATA while rendering, and in vblank. -/
theorem test_oamData :
    (warm { Ppu.reset with scanline := 100, oamAddr := 0x10 }).busWrite 0x2004 0x55 =
      warm { Ppu.reset with scanline := 100, oamAddr := 0x10 } ∧
    ((warm { Ppu.reset with scanline := 245, oamAddr := 0xFF }).busWrite 0x2004 0x55).ppu =
      { Ppu.reset with scanline := 245, oam := [(0xFF, 0x55)] } := by decide

/-- 2.11: the pre-render clear. -/
theorem test_prerender_clear :
    (({ Ppu.reset with scanline := 261, status := 0xE0 } : Ppu).tick 1).1 =
      { Ppu.reset with scanline := 261, dot := 3 } := by decide

/-- 2.11: the skipped dot, and the two cases that do not skip. -/
theorem test_skipped_dot :
    let u := { Ppu.reset with scanline := 261, dot := 339 }
    (({ u with oddFrame := true, mask := 0x08 } : Ppu).stepDot.dot,
      ({ u with oddFrame := true } : Ppu).stepDot.dot, ({ u with mask := 0x18 } : Ppu).stepDot.dot) = (0, 340, 340) := by
  decide

/-- LDA 0x2007 with no CHR and v at 0x0123. -/
def ldaWithoutChr : State :=
  { start [] with
    cart := { Cartridge.blank with chrUnits := 0, prg := [(0, 0xAD), (1, 0x07), (2, 0x20)] }
    ppu := { Ppu.reset with v := 0x0123 } }

/-- The machine that `raise Fault` leaves there: `faulted` set, PC after the three fetched bytes (R24, R62). -/
def ldaFaulted : State := { ldaWithoutChr with pc := 0x8003, faulted := some (.mapperOutOfRange 0x0123) }

/-- A PPUDATA read without CHR faults and sets `faulted` (L1.9, R61, R62). -/
theorem test_read_without_chr : step ldaWithoutChr = .fault (.mapperOutOfRange 0x0123 ldaFaulted) := faultOf_eq (by decide)

/-- Once faulted the machine takes no further step, not even a pending NMI (R24, R326). -/
theorem test_no_step_once_faulted :
    faultOf (step { ldaFaulted with nmiPending := true }) =
      some (.mapperOutOfRange 0x0123 { ldaFaulted with nmiPending := true }) := by decide

/-- A reset does not clear `faulted` (R24, and the table of R28). -/
theorem test_reset_keeps_faulted : (nextOf (systemReset ldaFaulted)).map State.faulted =
    some (some (.mapperOutOfRange 0x0123)) := by decide

/-- R77, R84 and R180: INC of OAMDATA in vblank is one register read and one register write. -/
theorem test_inc_oamData :
    (nextOf (exec (.incAbs 0x2004) (warm { Ppu.reset with scanline := 245, oamAddr := 5, oam := [(5, 1)] }))).map
      (fun t => (t.ppu.oam, t.ppu.oamAddr)) = some ([(5, 2)], 6) := by decide

/-! ## Witnesses: concrete states and operands that meet the hypotheses of each statement -/

theorem test_witness_decodeInvertsEncode : (Instr.jmpInd 0xFFFF).wf = true ∧ (Instr.unassigned 0x02).wf = true := by decide

theorem test_witness_encodeInvertsDecode : decode [0xA9, 0x10, 0x55] = .ok (.ldaImm 0x10, [0x55]) := rfl

theorem test_witness_decodeFailsOnlyWhenTruncated :
    decode [] = .error .empty ∧ decode [0xA9] = .error (.truncated 0xA9) ∧
    decode [0x4C, 0x00] = .error (.truncated 0x4C) := ⟨rfl, rfl, rfl⟩

/-- An instruction is fetched. -/
theorem test_witness_step_fetches :
    atNop.faulted = none ∧ atNop.nmiPending = false ∧ (atNop.irqLine && !atNop.flags.i) = false ∧
      ∃ r, atNop.fetchInstr = .ok r := ⟨rfl, rfl, rfl, answers_ok (by decide)⟩

/-- A machine whose fetch faults: PC in the register window, no CHR. -/
def fetchFaults : State := { atNop with pc := 0x2007, cart := { atNop.cart with chrUnits := 0 } }

theorem test_witness_step_fetch_faults :
    fetchFaults.faulted = none ∧ fetchFaults.nmiPending = false ∧ (fetchFaults.irqLine && !fetchFaults.flags.i) = false ∧
      answers fetchFaults.fetchInstr = false := by decide

/-- Bytes fetched from the register window: LDX # from OAMDATA at 0x2004, its operand from PPU register 5, a free byte. -/
theorem test_witness_step_fetches_registers :
    let s := { atNop with pc := 0x2004, ppu := { Ppu.reset with oam := [(0, 0xA2)] } }
    ∃ s1, s.busRead s.pc = .ok (0xA2, s1) ∧ opcodeLength 0xA2 = 2 ∧
      ∃ b t, fetchedBytes 2 s = .ok ([0xA2, b], t) ∧ s.fetchInstr = .ok (.ldxImm b, t) :=
  ⟨_, rfl, rfl, _, _, rfl, rfl⟩

/-- A fetch at 0x2007 takes the opcode from the read buffer and moves v: NOP (R65, R72, R80). -/
theorem test_fetch_ppuData :
    (match ({ atNop with pc := 0x2007, ppu := { Ppu.reset with readBuf := 0xEA } } : State).fetchInstr with
      | .ok (i, t) => i = .nop ∧ t.ppu.v = 1 ∧ t.pc = 0x2008
      | .error _ => False) := ⟨rfl, rfl, rfl⟩

/-- Bytes that decode, across the wrap from 0xFFFF to 0x0000. -/
theorem test_witness_step_decodes :
    let s := { atNop with pc := 0xFFFF, ram := [(0, 0x10)], cart := { atNop.cart with prg := [(0x3FFF, 0xA9)] } }
    decode [0xA9, 0x10] = .ok (.ldaImm 0x10, []) ∧ s.peek s.pc = some 0xA9 ∧ s.peek (s.pc + 1) = some 0x10 :=
  ⟨rfl, by decide, by decide⟩

theorem test_witness_stepServesInterruptsInOrder :
    ({ atNop with faulted := some (.mapperOutOfRange 0) } : State).faulted = some (.mapperOutOfRange 0) ∧
    (let s := { atNop with nmiPending := true };
      s.faulted = none ∧ s.nmiPending = true) ∧
    (let s := withP 0x20 { atNop with irqLine := true };
      s.faulted = none ∧ s.nmiPending = false ∧ s.irqLine = true ∧ s.flags.i = false) := by decide

theorem test_witness_stepKeepsInvariant : State.reset.Inv ∧ ∃ t, step State.reset = .next t :=
  ⟨by decide, nextOf_isSome (by decide)⟩

/-- The last line and dot, where the counters are at the edge of the invariant. -/
theorem test_witness_invariant_edge :
    ({ State.reset with ppu := { Ppu.reset with scanline := 261, dot := 340, vram := [(2047, 1)] }, ram := [(2047, 1)] } :
      State).Inv := by decide

theorem test_witness_powerOnEndsInReset :
    zeroDraws.a = 0 ∧ zeroDraws.x = 0 ∧ zeroDraws.y = 0 ∧ zeroDraws.sp = 0 ∧ zeroDraws.ram = [] ∧ zeroDraws.ppu = Ppu.reset ∧
    zeroDraws.flags = { n := false, v := false, d := false, i := false, z := false, c := false } := by decide

/-- A loaded file, and an accepted header. -/
theorem test_witness_loaderContract : ∃ c, loadCartridge smallFile = .ok c := test_load_small.imp fun _ h => h.1

theorem test_witness_stepKeepsCartridgeAndInputs : ∃ t, step { atNop with irqLine := true } = .next t :=
  nextOf_isSome (by decide)

theorem test_witness_anomalyLogOnlyGrows :
    (∃ t, step (start [0x02]) = .next t) ∧ ∃ t, systemReset (start [0x02]) = .next t :=
  ⟨nextOf_isSome (by decide), nextOf_isSome (by decide)⟩

theorem test_witness_cyclesOfInstructions :
    (∃ t, exec (.unassigned 0x02) State.reset = .next t) ∧ (∃ t, exec .brk State.reset = .next t) ∧
    (Instr.unassigned 0x02).operation = .unassigned ∧ Instr.brk.operation ≠ .unassigned :=
  ⟨nextOf_isSome (by decide), nextOf_isSome (by decide), rfl, by decide⟩

theorem test_witness_stepCompletesWithChr : State.reset.Live ∧ atNop.Live := by decide

theorem test_witness_faultsOnlyWithoutChr : ldaWithoutChr.faulted = none ∧ ∃ r, step ldaWithoutChr = .fault r :=
  ⟨rfl, _, test_read_without_chr⟩

/-- Every operation completes from reset, so every clause of the writers' statements is met by an instruction outside it. -/
theorem test_witness_writersOfRegisters :
    (∃ t, exec (.staZp 0x10) State.reset = .next t) ∧
    Operation.sta ∉ [Operation.adc, .sbc, .and, .ora, .eor, .lda, .pla, .txa, .tya] ∧
    Instr.staZp 0x10 ∉ [Instr.aslAcc, Instr.lsrAcc, Instr.rolAcc, Instr.rorAcc] ∧
    Operation.sta ∉ [Operation.ldx, .tax, .tsx, .inx, .dex] ∧ Operation.sta ∉ [Operation.ldy, .tay, .iny, .dey] :=
  ⟨nextOf_isSome (by decide), by decide, by decide, by decide, by decide⟩

theorem test_witness_writersOfStackPointer :
    (∃ t, exec .nop State.reset = .next t) ∧ (∃ t, exec .pha State.reset = .next t) ∧
    (∃ t, exec .plp State.reset = .next t) ∧ (∃ t, exec (.jsr 0x9000) State.reset = .next t) ∧
    (∃ t, exec .rts State.reset = .next t) ∧ (∃ t, exec .brk State.reset = .next t) ∧
    ∃ t, exec .rti State.reset = .next t :=
  ⟨nextOf_isSome (by decide), nextOf_isSome (by decide), nextOf_isSome (by decide), nextOf_isSome (by decide),
    nextOf_isSome (by decide), nextOf_isSome (by decide), nextOf_isSome (by decide)⟩

theorem test_witness_writersOfFlags :
    (∃ t, exec .txs State.reset = .next t) ∧ Instr.txs.operation = .txs ∧
    Operation.txs ∉ [Operation.adc, .sbc, .bit, .clv, .plp, .rti] ∧ Operation.txs ∉ [Operation.sed, .cld, .plp, .rti] ∧
    Operation.txs ∉ [Operation.sei, .cli, .brk, .plp, .rti] ∧
    Operation.txs ∉ [Operation.adc, .sbc, .cmp, .cpx, .cpy, .asl, .lsr, .rol, .ror, .clc, .sec, .plp, .rti] :=
  ⟨nextOf_isSome (by decide), rfl, by decide, by decide, by decide, by decide⟩

/-- A store through a mirror and an address it does not reach; the address 0x2000 is no RAM byte. -/
theorem test_witness_storesOnlyWhereComputed :
    (∃ t, exec (.staAbs 0x1810) State.reset = .next t) ∧ storedAddrs (.staAbs 0x1810) State.reset = [0x1810] ∧
    ¬ sameRamByte 0x1810 0x0011 ∧ sameRamByte 0x1810 0x0010 ∧ ¬ sameRamByte 0x1810 0x2010 :=
  ⟨nextOf_isSome (by decide), by decide, by unfold sameRamByte; decide, by unfold sameRamByte; decide,
    by unfold sameRamByte; decide⟩

theorem test_witness_execKeepsConsoleState :
    (∃ t, exec (.incZp 0x10) State.reset = .next t) ∧ Instr.operation (.incZp 0x10) ≠ .unassigned ∧
    ∃ r, exec (.incAbs 0x2007) ldaWithoutChr = .fault r :=
  ⟨nextOf_isSome (by decide), by decide, _, rfl⟩

/-- The last byte below the window and the first above it; and a JMP indirect whose pointer lies there. -/
theorem test_witness_ppuReachedOnlyThroughItsWindow :
    (∃ t, exec (.ldaAbs 0x1FFF) State.reset = .next t) ∧ ¬ inPpuWindow 0x1FFF ∧ ¬ inPpuWindow 0x4000 ∧
    inPpuWindow 0x2000 ∧ inPpuWindow 0x3FFF ∧ (∃ t, exec (.jmpInd 0x1FFF) State.reset = .next t) ∧
    ¬ inPpuWindow ((0x1FFF &&& 0xFF00) ||| ((0x1FFF + 1) &&& 0x00FF)) :=
  ⟨nextOf_isSome (by decide), by unfold inPpuWindow; decide, by unfold inPpuWindow; decide,
    by unfold inPpuWindow; decide, by unfold inPpuWindow; decide, nextOf_isSome (by decide),
    by unfold inPpuWindow; decide⟩

/-- Each clause of the bus statements at the ends of its range. -/
theorem test_witness_bus_ranges :
    ((0x1FFF : Word).toNat < 0x2000 ∧ (0x17FF : Word).toNat % 0x0800 = (0x1FFF : Word).toNat % 0x0800) ∧
    (0x4000 ≤ (0x4017 : Word).toNat ∧ (0x4017 : Word).toNat ≤ 0x4017) ∧
    (0x4018 ≤ (0x401F : Word).toNat ∧ (0x401F : Word).toNat < 0x4020) ∧
    (0x4020 ≤ (0x7FFF : Word).toNat ∧ (0x7FFF : Word).toNat < 0x8000) ∧ 0x4020 ≤ (0x4020 : Word).toNat ∧
    0x8000 ≤ (0x8000 : Word).toNat ∧ 0x8000 ≤ (0xFFFF : Word).toNat := by decide

theorem test_witness_prgMapping :
    Cartridge.blank.prgBanks = .one ∧ ({ Cartridge.blank with prgBanks := .two } : Cartridge).prgBanks = .two := by decide

/-- Every register of the window, through its first and its last mirror. -/
theorem test_witness_window :
    (∀ k : Fin 8, 0x2000 ≤ (BitVec.ofNat 16 (0x2000 + k.val)).toNat ∧
      (BitVec.ofNat 16 (0x2000 + k.val)).toNat < 0x4000 ∧ (BitVec.ofNat 16 (0x2000 + k.val)).toNat % 8 = k.val) ∧
    ∀ k : Fin 8, 0x2000 ≤ (BitVec.ofNat 16 (0x3FF8 + k.val)).toNat ∧
      (BitVec.ofNat 16 (0x3FF8 + k.val)).toNat < 0x4000 ∧ (BitVec.ofNat 16 (0x3FF8 + k.val)).toNat % 8 = k.val := by decide

theorem test_witness_warmUpLockout :
    inPpuWindow 0x3FFE ∧ (0x3FFE : Word).toNat % 8 ∈ [0, 1, 5, 6] ∧ (0x3FFF : Word).toNat % 8 ∈ [3, 4, 7] ∧
    ({ State.reset with cyc := 29658 } : State).cyc ≤ 29658 :=
  ⟨by unfold inPpuWindow; decide, by decide, by decide, by decide⟩

theorem test_witness_ppuStatusRead : inPpuWindow 0x3FFA ∧ (0x3FFA : Word).toNat % 8 = 2 :=
  ⟨by unfold inPpuWindow; decide, by decide⟩

/-- The four clauses at the ends of their ranges of v. -/
theorem test_witness_ppuDataRead :
    inPpuWindow 0x2007 ∧ (0x2007 : Word).toNat % 8 = 7 ∧
    ((0x1FFF : BitVec 15).setWidth 14 : BitVec 14).toNat < 8192 * Cartridge.blank.chrUnits ∧
    ({ Cartridge.blank with chrUnits := 0 } : Cartridge).chrUnits = 0 ∧
    0x2000 ≤ ((0x2000 : BitVec 15).setWidth 14 : BitVec 14).toNat ∧
    ((0x3EFF : BitVec 15).setWidth 14 : BitVec 14).toNat < 0x3F00 ∧
    0x3F00 ≤ ((0x7F00 : BitVec 15).setWidth 14 : BitVec 14).toNat :=
  ⟨by unfold inPpuWindow; decide, by decide, by decide, by decide, by decide, by decide, by decide⟩

/-- A machine past the warm-up by one cycle, with the toggle as given. -/
def justWarm (w : Bool) : State := { State.reset with cyc := 29659, ppu := { Ppu.reset with w := w } }

theorem test_witness_ppuCtrlMaskWrites :
    inPpuWindow 0x2000 ∧ inPpuWindow 0x3FF9 ∧ 29658 < (justWarm false).cyc ∧ (0x2000 : Word).toNat % 8 = 0 ∧
    (0x3FF9 : Word).toNat % 8 = 1 :=
  ⟨by unfold inPpuWindow; decide, by unfold inPpuWindow; decide, by decide, by decide, by decide⟩

theorem test_witness_ppuOamWrites :
    inPpuWindow 0x2003 ∧ inPpuWindow 0x3FFC ∧ (0x2003 : Word).toNat % 8 = 3 ∧ (0x3FFC : Word).toNat % 8 = 4 ∧
    ({ Ppu.reset with scanline := 239 } : Ppu).scanline < 240 ∧
    240 ≤ ({ Ppu.reset with scanline := 240 } : Ppu).scanline :=
  ⟨by unfold inPpuWindow; decide, by unfold inPpuWindow; decide, by decide, by decide, by decide, by decide⟩

theorem test_witness_ppuScrollAddrWrites :
    inPpuWindow 0x2005 ∧ inPpuWindow 0x3FFE ∧ (0x2005 : Word).toNat % 8 = 5 ∧ (0x3FFE : Word).toNat % 8 = 6 ∧
    ∀ w, 29658 < (justWarm w).cyc ∧ (justWarm w).ppu.w = w :=
  ⟨by unfold inPpuWindow; decide, by unfold inPpuWindow; decide, by decide, by decide, by decide⟩

/-- The two sides of 0x2000, and a PPUSTATUS mirror. -/
theorem test_witness_ppuDataWrite :
    inPpuWindow 0x3FFF ∧ (0x3FFF : Word).toNat % 8 = 7 ∧
    ((0x5FFF : BitVec 15).setWidth 14 : BitVec 14).toNat < 0x2000 ∧
    0x2000 ≤ ((0x2000 : BitVec 15).setWidth 14 : BitVec 14).toNat ∧ inPpuWindow 0x3FFA ∧ (0x3FFA : Word).toNat % 8 = 2 :=
  ⟨by unfold inPpuWindow; decide, by decide, by decide, by decide, by unfold inPpuWindow; decide, by decide⟩

/-- Each clause: 0x7FFF, an open PPU register, OAMDATA, and 0x401F. -/
theorem test_witness_openReads :
    (0x4020 ≤ (0x7FFF : Word).toNat ∧ (0x7FFF : Word).toNat < 0x8000) ∧
    (inPpuWindow 0x3FFE ∧ (0x3FFE : Word).toNat % 8 ∈ [0, 1, 3, 5, 6]) ∧
    (inPpuWindow 0x3FFC ∧ (0x3FFC : Word).toNat % 8 = 4) ∧
    (0x4018 ≤ (0x401F : Word).toNat ∧ (0x401F : Word).toNat < 0x4020) :=
  ⟨by decide, ⟨by unfold inPpuWindow; decide, by decide⟩, ⟨by unfold inPpuWindow; decide, by decide⟩, by decide⟩

theorem test_witness_interruptEntryEffect : nmiVector = 0xFFFA ∧ irqVector = 0xFFFE := by decide

/-- The four clauses: the skipped dot, an ordinary one, the end of a line and the end of the frame. -/
theorem test_witness_dotAdvance :
    (let u := { Ppu.reset with scanline := 261, dot := 339, oddFrame := true, mask := 0x08 };
      u.scanline ≤ 261 ∧ u.dot ≤ 340 ∧ u.scanline = 261 ∧ u.dot = 339 ∧ u.oddFrame = true ∧
        u.mask.getLsbD 3 = true) ∧
    (let u := { Ppu.reset with scanline := 261, dot := 339 };
      u.oddFrame = false ∧ u.dot < 340) ∧
    (let u := { Ppu.reset with scanline := 260, dot := 340 };
      u.dot = 340 ∧ u.scanline < 261) ∧
    (let u := { Ppu.reset with scanline := 261, dot := 340 };
      u.dot = 340 ∧ u.scanline = 261) := by decide

theorem test_witness_vblankFlagEvents :
    (let u := { Ppu.reset with scanline := 241, dot := 0 };
      u.scanline = 241 ∧ u.dot = 0 ∧ u.suppress = false) ∧
    (let u := { Ppu.reset with scanline := 241, dot := 0, suppress := true };
      u.scanline = 241 ∧ u.dot = 0 ∧ u.suppress = true) ∧
    (let u := { Ppu.reset with scanline := 261, dot := 0 };
      u.scanline = 261 ∧ u.dot = 0) ∧
    (let u := { Ppu.reset with scanline := 240, dot := 340 };
      ¬ (u.dot = 0 ∧ (u.scanline = 241 ∨ u.scanline = 261))) := by decide

theorem test_witness_frameLength :
    Ppu.reset.scanline = 0 ∧ Ppu.reset.dot = 0 ∧
    ({ Ppu.reset with oddFrame := true, mask := 0x10 } : Ppu).scanline = 0 := by decide

/-- One tick that passes (241, 1), not suppressed and suppressed. -/
theorem test_witness_nmiEdgeAtVblank :
    ∀ b : Bool, let u := { Ppu.reset with scanline := 241, dot := 0, suppress := b };
      u.scanline ≤ 261 ∧ u.dot ≤ 340 ∧ u.status.getLsbD 7 = false ∧ u.position < 82182 ∧
      82182 ≤ u.position + 3 * 1 ∧ u.position + 3 * 1 < 89002 ∧ u.suppress = b := by decide

/-- The first position of vblank, with the level already seen; and a level raised since. -/
theorem test_witness_nmiEdgeFiresOnce :
    (let u := { Ppu.reset with scanline := 241, dot := 1, ctrl := 0x80, status := 0x80, nmiPrev := true };
      u.scanline ≤ 261 ∧ u.dot ≤ 340 ∧ u.ctrl.getLsbD 7 = true ∧ u.status.getLsbD 7 = true ∧ u.nmiPrev = true ∧
      82182 ≤ u.position ∧ u.position + 3 * 1 < 89002) ∧
    (let u := { Ppu.reset with ctrl := 0x80, status := 0x80 };
      u.ctrl.getLsbD 7 = true ∧ u.status.getLsbD 7 = true ∧ u.nmiPrev = false) ∧
    Ppu.reset.ctrl.getLsbD 7 = false := by decide

/-- A tick takes the first entry of the schedule into status[6:5] and drops it (R74, R318, log 11); bit 5 and bit 6 apart. -/
theorem test_witness_tick_takes_sprite_status :
    let u := { Ppu.reset with status := 0xDF, spriteStatus := [0b01, 0b10] }
    u.spriteStatus = 0b01 :: [0b10] ∧ Ppu.reset.spriteStatus = [] ∧
    ((u.tick 1).1.status, (u.tick 1).1.spriteStatus) = (0xBF, [0b10]) ∧
    (((u.tick 1).1.tick 1).1.status, ((u.tick 1).1.tick 1).1.spriteStatus) = (0xDF, []) := by decide

/-- Every mode resolves and reads its operand from reset: what the read rows, the read-modify-write rows, the stores and the
last clause of the addressing statement ask for. -/
theorem test_witness_rows :
    ∀ mode ∈ [MemMode.zp 0xFF, .zpX 0xFF, .zpY 0xFF, .abs 0xFFFF, .absX 0xFFFF, .absY 0x1FFF, .indX 0xFF, .indY 0xFF],
      answers (State.reset.resolve mode) = true ∧ answers (State.reset.loadOperand mode) = true := by decide

/-- The same in the form the rows state it. -/
theorem test_witness_readRow : ∃ r, State.reset.loadOperand (.indY 0xFF) = .ok r :=
  answers_ok (test_witness_rows (.indY 0xFF) (by decide)).2

theorem test_witness_rmwRow :
    ∃ t s1 m s2, State.reset.resolve (.absX 0x17FF) = .ok (t, s1) ∧ s1.busRead t.ea = .ok (m, s2) :=
  ⟨_, _, _, _, rfl, rfl⟩

/-- Operand and pointer reads that fault: the read rows, the read-modify-write rows, and both pointer bytes of JMP indirect. -/
theorem test_witness_reads_fault :
    (∃ e, ldaWithoutChr.loadOperand (.absX 0x2007) = .error e) ∧
    (∃ t s1 e, ldaWithoutChr.resolve (.abs 0x3FFF) = .ok (t, s1) ∧ s1.busRead t.ea = .error e) ∧
    (∃ e, ldaWithoutChr.busRead 0x2007 = .error e) ∧
    ∃ lo s1 e, ldaWithoutChr.busRead 0x2006 = .ok (lo, s1) ∧
      s1.busRead (BitVec.ofNat 16 (256 * ((0x2006 : Word).toNat / 256) + ((0x2006 : Word).toNat + 1) % 256)) = .error e :=
  ⟨⟨_, rfl⟩, ⟨_, _, _, rfl, rfl⟩, ⟨_, rfl⟩, _, _, _, rfl, rfl⟩

theorem test_witness_jumpResult :
    ∃ lo s1 hi s2, State.reset.busRead 0x10FF = .ok (lo, s1) ∧
      s1.busRead (BitVec.ofNat 16 (256 * ((0x10FF : Word).toNat / 256) + ((0x10FF : Word).toNat + 1) % 256)) = .ok (hi, s2) :=
  ⟨_, _, _, _, rfl, rfl⟩

/-- BRK then RTI, an interrupt then RTI, JSR then RTS: each half answers. -/
theorem test_witness_callAndReturnRoundTrips :
    (∃ t u, exec .brk State.reset = .next t ∧ exec .rti t = .next u) ∧
    (∃ t u, interruptEntry nmiVector State.reset = .next t ∧ exec .rti t = .next u) ∧
    ∃ t u, exec (.jsr 0x9000) State.reset = .next t ∧ exec .rts t = .next u :=
  ⟨⟨_, _, rfl, rfl⟩, ⟨_, _, rfl, rfl⟩, ⟨_, _, rfl, rfl⟩⟩

theorem test_witness_operandsReadable :
    0 < State.reset.cart.chrUnits ∧ ∃ r, State.reset.loadOperand (.abs 0x2007) = .ok r :=
  ⟨by decide, answers_ok (by decide)⟩

end Sys2Proof.Tests
end

section
/-! PROOF. Which instructions write A, X and Y (10_state.md R13). The operations R13 names are listed once; each class of `exec`
then leaves every register whose list does not hold its operation. -/

namespace Sys2Proof.Machine

/-! ## The stack leaves A, X and Y -/

@[simp] theorem State.push_a (s : State) (b : Byte) : (s.push b).a = s.a := by simp [State.push]
@[simp] theorem State.push_x (s : State) (b : Byte) : (s.push b).x = s.x := by simp [State.push]
@[simp] theorem State.push_y (s : State) (b : Byte) : (s.push b).y = s.y := by simp [State.push]

@[simp] theorem State.pushWord_a (s : State) (w : Word) : (s.pushWord w).a = s.a := by simp [State.pushWord]
@[simp] theorem State.pushWord_x (s : State) (w : Word) : (s.pushWord w).x = s.x := by simp [State.pushWord]
@[simp] theorem State.pushWord_y (s : State) (w : Word) : (s.pushWord w).y = s.y := by simp [State.pushWord]

/-! ## The frame of an operation on A, X and Y -/

/-- The operations that write A in every mode (R13); the shifts and rotates do so in accumulator mode only. -/
def writersOfA : List Operation := [.adc, .sbc, .and, .ora, .eor, .lda, .pla, .txa, .tya]

/-- The operations that write X (R13). -/
def writersOfX : List Operation := [.ldx, .tax, .tsx, .inx, .dex]

/-- The operations that write Y (R13). -/
def writersOfY : List Operation := [.ldy, .tay, .iny, .dey]

/-- From `s` to `t`, a register changes only if R13 lists the operation among its writers. -/
structure RegisterFrame (o : Operation) (s t : State) : Prop where
  a : o ∉ writersOfA → t.a = s.a
  x : o ∉ writersOfX → t.x = s.x
  y : o ∉ writersOfY → t.y = s.y

section
variable {o : Operation} {s s1 t : State}

theorem RegisterFrame.ofKept (a : t.a = s.a) (x : t.x = s.x) (y : t.y = s.y) : RegisterFrame o s t :=
  ⟨fun _ => a, fun _ => x, fun _ => y⟩

theorem RegisterFrame.ofWriterOfA (o_mem : o ∈ writersOfA) (x : t.x = s.x) (y : t.y = s.y) : RegisterFrame o s t :=
  ⟨fun o_not_mem => absurd o_mem o_not_mem, fun _ => x, fun _ => y⟩

theorem RegisterFrame.ofWriterOfX (o_mem : o ∈ writersOfX) (a : t.a = s.a) (y : t.y = s.y) : RegisterFrame o s t :=
  ⟨fun _ => a, fun o_not_mem => absurd o_mem o_not_mem, fun _ => y⟩

theorem RegisterFrame.ofWriterOfY (o_mem : o ∈ writersOfY) (a : t.a = s.a) (x : t.x = s.x) : RegisterFrame o s t :=
  ⟨fun _ => a, fun _ => x, fun o_not_mem => absurd o_mem o_not_mem⟩

theorem RegisterFrame.addCycles (h : RegisterFrame o s t) (k : Nat) : RegisterFrame o s (t.addCycles k) :=
  ⟨h.a, h.x, h.y⟩

/-- Bus reads before the effect leave all three registers. -/
theorem RegisterFrame.afterReads (r : s.Reads s1) (h : RegisterFrame o s1 t) : RegisterFrame o s t :=
  ⟨fun k => (h.a k).trans r.a, fun k => (h.x k).trans r.x, fun k => (h.y k).trans r.y⟩

end

/-! ## The frame of every class -/

theorem ReadEffect.registerFrame {o : Operation} {f : Byte → State → State} (effect : ReadEffect o f) (m : Byte)
    (s : State) : RegisterFrame o s (f m s) := by
  cases effect
  case adc | sbc | and | ora | eor | lda => exact .ofWriterOfA (by decide) rfl rfl
  case ldx => exact .ofWriterOfX (by decide) rfl rfl
  case ldy => exact .ofWriterOfY (by decide) rfl rfl
  case cmp | cpx | cpy | bit => exact .ofKept rfl rfl rfl

theorem Plain.registerFrame {o : Operation} {s t : State} (h : Plain o s t) : RegisterFrame o s t := by
  cases h
  case pla | txa | tya => exact .ofWriterOfA (by decide) rfl rfl
  case tax | tsx | inx | dex => exact .ofWriterOfX (by decide) rfl rfl
  case tay | iny | dey => exact .ofWriterOfY (by decide) rfl rfl
  case pha | php | brk => exact .ofKept (by simp) (by simp) (by simp)
  case jsr => exact .ofKept (by simp [callSubroutine]) (by simp [callSubroutine]) (by simp [callSubroutine])
  all_goals exact .ofKept rfl rfl rfl

/-- Every instruction keeps to its operation's frame, but for the shifts and rotates of the accumulator, which leave X and Y. -/
theorem exec_registerFrame {i : Instr} {s t : State} (h : exec i s = .next t) :
    RegisterFrame i.operation s t ∨
      i ∈ [Instr.aslAcc, Instr.lsrAcc, Instr.rolAcc, Instr.rorAcc] ∧ t.x = s.x ∧ t.y = s.y := by
  cases exec_class i with
  | read mode base extra f effect arm =>
    rw [arm] at h
    obtain ⟨_, m, s1, _, -, -, reads, -, rfl⟩ := readOp_next h
    exact .inl (((effect.registerFrame m s1).afterReads reads).addCycles _)
  | immediate imm f effect arm =>
    rw [arm] at h
    obtain rfl := immOp_next h
    exact .inl ((effect.registerFrame imm s).addCycles _)
  | store mode base reg source arm =>
    rw [arm] at h
    obtain ⟨_, -, rfl⟩ := storeOp_next h
    exact .inl (.ofKept (by simp) (by simp) (by simp))
  | modify mode base f effect arm =>
    rw [arm] at h
    obtain ⟨_, _, _, -, -, reads, rfl⟩ := rmwOp_next h
    exact .inl (.afterReads reads (.ofKept (by simp) (by simp) (by simp)))
  | accumulator f effect which arm =>
    rw [arm] at h
    obtain rfl := accOp_next h
    exact .inr ⟨which, rfl, rfl⟩
  | branch rel flag expected which arm =>
    rw [arm] at h
    obtain ⟨_, _, result, -⟩ := branchOp_next (flag s.flags) expected rel s
    rw [result] at h
    cases h
    exact .inl (.ofKept rfl rfl rfl)
  | indirect ptr which arm =>
    rw [arm] at h
    obtain ⟨_, _, _, _, -, -, reads, rfl⟩ := jumpIndirect_next h
    exact .inl (.afterReads reads (.ofKept rfl rfl rfl))
  | plain arm =>
    obtain ⟨_, result, effect⟩ := arm s
    rw [result] at h
    cases h
    exact .inl effect.registerFrame

/-- Settles O19: every class of instruction keeps to the frame that R13's lists give its operation. -/
theorem writersOfRegisters : Obligations.WritersOfRegisters := by
  unfold Obligations.WritersOfRegisters
  intro i s t h
  rcases exec_registerFrame h with frame | ⟨accumulator, x, y⟩
  · exact ⟨fun notWriter _ => frame.a notWriter, frame.x, frame.y⟩
  · exact ⟨fun _ notAccumulator => absurd accumulator notAccumulator, fun _ => x, fun _ => y⟩

end Sys2Proof.Machine
end

section
/-! PROOF. What the CPU's memory accesses do (20_memory.md): internal RAM and its mirrors (R51), the regions a write leaves
alone (R53 to R56, R60), and the PPU register window with the warm-up lockout (R52, R75, R83, R84). -/

namespace Sys2Proof.Machine

/-! ## Bus writes, region by region -/

theorem State.busWrite_ram (s : State) {addr : Word} (v : Byte) (h : addr.toNat < 0x2000) :
    s.busWrite addr v = s.setRam (s.ram.write (addr.toNat % 0x0800) v) :=
  if_pos h

theorem State.busWrite_ppu (s : State) {addr : Word} (v : Byte) (h : inPpuWindow addr) :
    s.busWrite addr v = s.setPpu (s.ppu.registerWrite (ppuRegister addr) v s.cyc) := by
  obtain ⟨low, high⟩ := h
  rw [State.busWrite, if_neg (by omega), if_pos high]

theorem State.busWrite_ignored (s : State) {addr : Word} (v : Byte) (h : 0x4000 ≤ addr.toNat) :
    s.busWrite addr v = s := by
  rcases s.busWrite_cases addr v with ⟨low, -⟩ | ⟨-, low, -⟩ | ⟨-, same⟩
  · omega
  · omega
  · exact same

/-! ## Internal RAM -/

/-- A RAM read finds what the bus stored at any mirror of its address (R51). -/
theorem State.ramRead_busWrite_mirror (s : State) {addr b : Word} (v : Byte) (h : addr.toNat < 0x2000)
    (mirror : b.toNat % 0x0800 = addr.toNat % 0x0800) : (s.busWrite addr v).ramRead b = v := by
  rw [s.busWrite_ram v h, State.ramRead, State.setRam_ram, mirror, Memory.read_write_same]

/-- From 0x2000 up a bus write leaves every RAM byte (R51). -/
theorem State.busWrite_ram_eq (s : State) {addr : Word} (v : Byte) (h : 0x2000 ≤ addr.toNat) :
    (s.busWrite addr v).ram = s.ram := by
  rcases s.busWrite_cases addr v with ⟨low, -⟩ | ⟨-, -, register⟩ | ⟨-, same⟩
  · omega
  · rw [register, State.setPpu_ram]
  · rw [same]

/-- Settles O25: a read and a write below 0x2000 name one RAM byte by its residue; a write elsewhere reaches no RAM. -/
theorem ramIsMirrored : Obligations.RamIsMirrored := by
  unfold Obligations.RamIsMirrored
  refine ⟨fun s addr v h => ⟨s.busRead_ram h, s.ram.write (addr.toNat % 0x0800) v, s.busWrite_ram v h,
    Memory.read_write_same _ _ _, fun k ne => Memory.read_write_ne _ _ ne, fun b low mirror => ?_⟩,
    fun s addr v h => ⟨s.busWrite_ram_eq v h, s.busWrite_cart addr v⟩⟩
  rw [State.busRead_ram _ low, s.ramRead_busWrite_mirror v h mirror]

/-! ## Stubbed I/O and the cartridge -/

/-- Settles O26: the stub answers 0, and a write from 0x4000 up is ignored, the mapper's `cpuWrite` being the identity. -/
theorem stubAndCartridgeAccess : Obligations.StubAndCartridgeAccess := by
  unfold Obligations.StubAndCartridgeAccess
  refine fun s addr v => ⟨fun ⟨low, high⟩ => ⟨s.busRead_stub low (by omega), s.busWrite_ignored v low⟩, fun h => ?_⟩
  exact s.busWrite_ignored v (by omega)

/-! ## The PPU register window -/

/-- Register `r` is selected at every mirror, the addresses of the window that leave the residue `r` (R52). -/
theorem ppuRegister_eq {addr : Word} {r : BitVec 3} (h : addr.toNat % 8 = r.toNat) : ppuRegister addr = r :=
  BitVec.eq_of_toNat_eq ((ppuRegister_toNat addr).trans h)

theorem State.busWrite_register (s : State) {addr : Word} (r : BitVec 3) (d : Byte) (h : inPpuWindow addr)
    (k : addr.toNat % 8 = r.toNat) : s.busWrite addr d = s.setPpu (s.ppu.registerWrite r d s.cyc) := by
  rw [s.busWrite_ppu d h, ppuRegister_eq k]

/-- Through the warm-up PPUCTRL, PPUMASK, PPUSCROLL and PPUADDR take no write (R75). -/
theorem Ppu.registerWrite_lockedOut (p : Ppu) {r : BitVec 3} (d : Byte) {cyc : Nat} (h : r.toNat ∈ [0, 1, 5, 6])
    (warm : cyc ≤ warmUpLast) : p.registerWrite r d cyc = p := by
  obtain ⟨notOamAddr, notOamData, notData⟩ : r ≠ 3 ∧ r ≠ 4 ∧ r ≠ 7 := by
    refine ⟨?_, ?_, ?_⟩ <;> rintro rfl <;> simp at h
  rw [Ppu.registerWrite, if_neg notOamAddr, if_neg notOamData, if_neg notData, if_pos warm, ite_self]

/-- A write to OAMADDR, OAMDATA or PPUDATA does not depend on `cyc` (R75). -/
theorem Ppu.registerWrite_anyCyc (p : Ppu) {r : BitVec 3} (d : Byte) (h : r.toNat ∈ [3, 4, 7]) (cyc later : Nat) :
    p.registerWrite r d cyc = p.registerWrite r d later := by
  have unlocked : r = 3 ∨ r = 4 ∨ r = 7 := by
    simpa [← BitVec.toNat_inj] using h
  rcases unlocked with rfl | rfl | rfl
  · rfl
  · rfl
  · rfl

/-- Settles O29: the lockout of four registers through the warm-up, and that the three others never look at `cyc`. -/
theorem warmUpLockout : Obligations.WarmUpLockout := by
  unfold Obligations.WarmUpLockout
  intro s addr d window warm
  rw [← ppuRegister_toNat addr]
  refine ⟨fun locked => ?_, fun unlocked later => ?_⟩
  · rw [s.busWrite_ppu d window, s.ppu.registerWrite_lockedOut d locked warm]
    rfl
  · rw [s.busWrite_ppu d window, State.busWrite_ppu _ d window]
    exact s.ppu.registerWrite_anyCyc d unlocked s.cyc later

theorem Ppu.writeOamData_rendering {p : Ppu} (d : Byte) (h : p.scanline < 240) : p.writeOamData d = p :=
  if_pos h

theorem Ppu.writeOamData_stored {p : Ppu} (d : Byte) (h : 240 ≤ p.scanline) :
    p.writeOamData d = { p with oam := p.oam.write p.oamAddr.toNat d, oamAddr := p.oamAddr + 1 } :=
  if_neg (Nat.not_lt.mpr h)

/-- Settles O33: OAMADDR is stored at once, OAMDATA by the scanline. -/
theorem ppuOamWrites : Obligations.PpuOamWrites := by
  unfold Obligations.PpuOamWrites
  intro s addr d window
  have oamData (k : addr.toNat % 8 = 4) : s.busWrite addr d = s.setPpu (s.ppu.writeOamData d) :=
    s.busWrite_register 4 d window k
  refine ⟨s.busWrite_register 3 d window, fun k rendering => ?_, fun k blank => ?_⟩
  · rw [oamData k, Ppu.writeOamData_rendering d rendering]
    rfl
  · refine ⟨s.ppu.oam.write s.ppu.oamAddr.toNat d, ?_, Memory.read_write_same _ _ _,
      fun _ ne => Memory.read_write_ne _ _ ne⟩
    rw [oamData k, Ppu.writeOamData_stored d blank]
    rfl

end Sys2Proof.Machine
end

section
/-! PROOF. Where JMP goes (40_dispatch_and_addressing.md R142, R143; R217): the masks that make the address of the pointer's
second byte are arithmetic on its page and offset. -/

namespace Sys2Proof.Machine

/-- A page and an offset in it, taken by masks, are the high byte of one word over the low byte of the other. -/
theorem pageMask_or_offsetMask (page offset : Word) :
    (page &&& 0xFF00) ||| (offset &&& 0x00FF) = wordOf (hiByte page) (loByte offset) := by
  ext i bound
  rw [wordOf, BitVec.getElem_append]
  split
  · next inOffset => interval_cases i <;> simp [loByte]
  · next inPage => interval_cases i <;> simp [hiByte]

/-- The pointer's second byte lies in the pointer's own page: after offset 0xFF comes offset 0 (R143). -/
theorem indirectHigh_eq (ptr : Word) : (ptr &&& 0xFF00) ||| ((ptr + 1) &&& 0x00FF) =
    BitVec.ofNat 16 (256 * (ptr.toNat / 256) + (ptr.toNat + 1) % 256) := by
  apply BitVec.eq_of_toNat_eq
  rw [pageMask_or_offsetMask, wordOf_toNat, hiByte_toNat, loByte_toNat]
  bv_omega

/-- JMP indirect: the two pointer bytes in turn, then PC, in 5 cycles (R143, R217). -/
theorem exec_jmpInd (ptr : Word) (s : State) : exec (.jmpInd ptr) s = complete (do
    let (lo, s1) ← s.busRead ptr
    let (hi, s2) ← s1.busRead (BitVec.ofNat 16 (256 * (ptr.toNat / 256) + (ptr.toNat + 1) % 256))
    return (s2.setPc (wordOf hi lo), 5)) := by
  rw [← indirectHigh_eq]
  simp [exec, execJmpInd, jumpIndirect, State.readIndirect, State.readWordAt, finishRead]

/-- Settles O53: the operand goes to PC at once; the two pointer reads are followed in turn, to the first that faults. -/
theorem jumpResult : Obligations.JumpResult := by
  unfold Obligations.JumpResult
  refine ⟨fun addr => ⟨rfl, fun s => rfl⟩, fun ptr => ⟨rfl, ?completes, ?lowFaults, ?highFaults⟩⟩
  case completes =>
    intro s lo s1 hi s2 lowRead highRead
    simp only [exec_jmpInd, lowRead, highRead, bind, Except.bind]
    rfl
  case lowFaults =>
    intro s e lowFault
    simp only [exec_jmpInd, lowFault, bind, Except.bind]
    rfl
  case highFaults =>
    intro s lo s1 e lowRead highFault
    simp only [exec_jmpInd, lowRead, highFault, bind, Except.bind]
    rfl

end Sys2Proof.Machine
end

section
/-! PROOF. The results of the compares, the logical operations and BIT (41_arith_logic_compare.md R163 to R169). A row of the
table is its class of `exec` with one effect of the operand, so each operation states its effect once, for all its rows. -/

namespace Sys2Proof.Machine

/-! ## Rows by operand class -/

section

variable {f : Byte → State → State} {effect : State → Byte → State}

theorem ImmRow.ofArm {i : Instr} {code : List Byte} {imm : Byte} (bytes : encode i = code)
    (arm : ∀ s, exec i s = immOp imm f s) (f_eq : ∀ m s, f m s = effect s m) : ImmRow i code imm effect :=
  ⟨bytes, fun s => by rw [arm, immOp, finish_eq, f_eq]⟩

/-- The table's extra class as the rows state it, by whether it is `page` (R135). -/
theorem Extra.cycles_cond (page crossed : Bool) :
    (cond page Extra.page Extra.none).cycles crossed = if page && crossed then 1 else 0 := by
  cases page <;> rfl

theorem ReadRow.ofArm {i : Instr} {code : List Byte} {mode : MemMode} {base : Nat} {page : Bool} (bytes : encode i = code)
    (arm : ∀ s, exec i s = readOp mode base (cond page .page .none) f s) (f_eq : ∀ m s, f m s = effect s m) :
    ReadRow i code mode base page effect := by
  refine ⟨bytes, fun s m crossed s1 operand => ?completes, fun s e fault => ?faults⟩
  case completes => rw [arm, readOp_ok operand, f_eq, Extra.cycles_cond]
  case faults => rw [arm, readOp_error fault]

/-- The eight rows of an accumulator operation, from its eight encodings and its eight arms of `exec`. They are listed, so
that an operation gives each list by one `rfl`. -/
theorem EightRows.ofArms {imm zp zpX : Byte → Instr} {abs absX absY : Word → Instr} {indX indY : Byte → Instr}
    {oImm oZp oZpX oAbs oAbsX oAbsY oIndX oIndY : Byte}
    (bytes : ∀ b w,
      [encode (imm b), encode (zp b), encode (zpX b), encode (abs w), encode (absX w), encode (absY w),
        encode (indX b), encode (indY b)] =
      [[oImm, b], [oZp, b], [oZpX, b], encodeWord oAbs w, encodeWord oAbsX w, encodeWord oAbsY w,
        [oIndX, b], [oIndY, b]])
    (arms : ∀ b w s,
      [exec (imm b) s, exec (zp b) s, exec (zpX b) s, exec (abs w) s, exec (absX w) s, exec (absY w) s,
        exec (indX b) s, exec (indY b) s] =
      [immOp b f s, readOp (.zp b) 3 .none f s, readOp (.zpX b) 4 .none f s, readOp (.abs w) 4 .none f s,
        readOp (.absX w) 4 .page f s, readOp (.absY w) 4 .page f s, readOp (.indX b) 6 .none f s,
        readOp (.indY b) 5 .page f s])
    (f_eq : ∀ m s, f m s = effect s m) :
    EightRows imm zp zpX abs absX absY indX indY oImm oZp oZpX oAbs oAbsX oAbsY oIndX oIndY effect := by
  simp only [List.cons.injEq, and_true, forall_and, forall_const] at bytes arms
  obtain ⟨bImm, bZp, bZpX, bAbs, bAbsX, bAbsY, bIndX, bIndY⟩ := bytes
  obtain ⟨aImm, aZp, aZpX, aAbs, aAbsX, aAbsY, aIndX, aIndY⟩ := arms
  exact ⟨fun b => .ofArm (bImm b) (aImm b) f_eq, fun b => .ofArm (bZp b) (aZp b) f_eq,
    fun b => .ofArm (bZpX b) (aZpX b) f_eq, fun w => .ofArm (bAbs w) (aAbs w) f_eq,
    fun w => .ofArm (bAbsX w) (aAbsX w) f_eq, fun w => .ofArm (bAbsY w) (aAbsY w) f_eq,
    fun b => .ofArm (bIndX b) (aIndX b) f_eq, fun b => .ofArm (bIndY b) (aIndY b) f_eq⟩

end

/-! ## The flags -/

/-- Bit 7 of a byte is its sign. -/
theorem getLsbD_seven (b : Byte) : b.getLsbD 7 = b.msb :=
  (BitVec.msb_eq_getLsbD_last b).symm

theorem Flags.setNZ_eq (f : Flags) (r : Byte) : f.setNZ r = withNZ f r := by
  rw [Flags.setNZ, withNZ, getLsbD_seven, beq_eq_decide]

theorem Flags.compare_eq (f : Flags) (reg m : Byte) : f.compare reg m =
    { f with c := decide (m.toNat ≤ reg.toNat), z := decide (reg = m), n := (reg - m).msb } := by
  rw [Flags.compare, getLsbD_seven, beq_eq_decide]

theorem Flags.testBits_eq (f : Flags) (a m : Byte) : f.testBits a m =
    { f with n := m.getLsbD 7, v := m.getLsbD 6, z := decide (a &&& m = 0) } := by
  rw [Flags.testBits, beq_eq_decide]

theorem setANZ_eq (v : Byte) (s : State) : setANZ v s = { s with a := v, flags := withNZ s.flags v } := by
  rw [setANZ, Flags.setNZ_eq]
  rfl

/-! ## The operations -/

/-- Settles O45: CMP, CPX and CPY write the flags of one computation, made of A, of X and of Y. -/
theorem compareResult : Obligations.CompareResult := by
  unfold Obligations.CompareResult
  intro flagsOf
  have cmp (m : Byte) (s : State) : compareA m s = s.setFlags (flagsOf s.flags s.a m) :=
    congrArg s.setFlags (s.flags.compare_eq s.a m)
  have cpx (m : Byte) (s : State) : compareX m s = s.setFlags (flagsOf s.flags s.x m) :=
    congrArg s.setFlags (s.flags.compare_eq s.x m)
  have cpy (m : Byte) (s : State) : compareY m s = s.setFlags (flagsOf s.flags s.y m) :=
    congrArg s.setFlags (s.flags.compare_eq s.y m)
  refine ⟨.ofArms (f := compareA) (fun _ _ => rfl) (fun _ _ _ => rfl) cmp, ?cpxImm, ?cpxZp, ?cpxAbs,
    ?cpyImm, ?cpyZp, ?cpyAbs⟩
  case cpxImm => exact fun b => .ofArm (f := compareX) rfl (fun _ => rfl) cpx
  case cpxZp => exact fun b => .ofArm (f := compareX) rfl (fun _ => rfl) cpx
  case cpxAbs => exact fun w => .ofArm (f := compareX) rfl (fun _ => rfl) cpx
  case cpyImm => exact fun b => .ofArm (f := compareY) rfl (fun _ => rfl) cpy
  case cpyZp => exact fun b => .ofArm (f := compareY) rfl (fun _ => rfl) cpy
  case cpyAbs => exact fun w => .ofArm (f := compareY) rfl (fun _ => rfl) cpy

/-- Settles O46: each of the three sets A and N, Z to one bitwise result. -/
theorem logicResult : Obligations.LogicResult := by
  unfold Obligations.LogicResult
  refine ⟨?and, ?ora, ?eor⟩
  case and =>
    exact .ofArms (f := andA) (fun _ _ => rfl) (fun _ _ _ => rfl) fun m s => setANZ_eq (s.a &&& m) s
  case ora =>
    exact .ofArms (f := oraA) (fun _ _ => rfl) (fun _ _ _ => rfl) fun m s => setANZ_eq (s.a ||| m) s
  case eor =>
    exact .ofArms (f := eorA) (fun _ _ => rfl) (fun _ _ _ => rfl) fun m s => setANZ_eq (s.a ^^^ m) s

/-- Settles O47: BIT writes flags only, from the operand and A. -/
theorem bitResult : Obligations.BitResult := by
  unfold Obligations.BitResult
  intro effect
  have bit (m : Byte) (s : State) : bitTest m s = effect s m := congrArg s.setFlags (s.flags.testBits_eq s.a m)
  refine ⟨?zp, ?abs⟩
  case zp => exact fun b => .ofArm (f := bitTest) rfl (fun _ => rfl) bit
  case abs => exact fun w => .ofArm (f := bitTest) rfl (fun _ => rfl) bit

end Sys2Proof.Machine
end

section
/-! PROOF. The results of the shifts, the rotates, INC, DEC and the steps of X and Y by one (42_shift_and_incdec.md R180 to
R190). A read-modify-write row is its class of `exec` with the operation's function of the byte and the flags; each function
is the arithmetic of its rule. -/

namespace Sys2Proof.Machine

/-! ## Rows by operand class -/

section

variable {f : Byte → Flags → Byte × Flags}

/-- The read-modify-write class with its operand read: the function sees the flags as they stood before the read (R180). -/
theorem rmwOp_ok {mode : MemMode} {base : Nat} {s s1 s2 : State} {t : Target} {m : Byte}
    (target : s.resolve mode = .ok (t, s1)) (read : s1.busRead t.ea = .ok (m, s2)) :
    rmwOp mode base f s =
      .next (((s2.busWrite t.ea (f m s.flags).1).setFlags (f m s.flags).2).addCycles base) := by
  have flags : s2.flags = s.flags := by rw [(State.busRead_reads read).flags, State.resolve_state target]
  simp [rmwOp, target, read, flags, bind, Except.bind, pure, Except.pure, complete]

/-- The read-modify-write class with its operand read failing (R62). -/
theorem rmwOp_error {mode : MemMode} {base : Nat} {s s1 : State} {t : Target} {e : Fault}
    (target : s.resolve mode = .ok (t, s1)) (fault : s1.busRead t.ea = .error e) : rmwOp mode base f s = .fault e := by
  simp [rmwOp, target, fault, bind, Except.bind, complete]

theorem RmwRow.ofArm {i : Instr} {code : List Byte} {mode : MemMode} {base : Nat} (bytes : encode i = code)
    (arm : ∀ s, exec i s = rmwOp mode base f s) : RmwRow i code mode base f := by
  refine ⟨bytes, fun s t s1 m s2 target read => ?completes, fun s t s1 e target fault => ?faults⟩
  case completes => rw [arm, rmwOp_ok target read]
  case faults => rw [arm, rmwOp_error target fault]

/-- The four memory rows of a read-modify-write operation, from its encodings and its arms of `exec`, listed so that an
operation gives each list by one `rfl`. -/
theorem FourRmwRows.ofArms {zp zpX : Byte → Instr} {abs absX : Word → Instr} {oZp oZpX oAbs oAbsX : Byte}
    (bytes : ∀ b w, [encode (zp b), encode (zpX b), encode (abs w), encode (absX w)] =
      [[oZp, b], [oZpX, b], encodeWord oAbs w, encodeWord oAbsX w])
    (arms : ∀ b w s, [exec (zp b) s, exec (zpX b) s, exec (abs w) s, exec (absX w) s] =
      [rmwOp (.zp b) 5 f s, rmwOp (.zpX b) 6 f s, rmwOp (.abs w) 6 f s, rmwOp (.absX w) 7 f s]) :
    FourRmwRows zp zpX abs absX oZp oZpX oAbs oAbsX f := by
  simp only [List.cons.injEq, and_true, forall_and, forall_const] at bytes arms
  obtain ⟨bZp, bZpX, bAbs, bAbsX⟩ := bytes
  obtain ⟨aZp, aZpX, aAbs, aAbsX⟩ := arms
  exact ⟨fun b => .ofArm (bZp b) (aZp b), fun b => .ofArm (bZpX b) (aZpX b), fun w => .ofArm (bAbs w) (aAbs w),
    fun w => .ofArm (bAbsX w) (aAbsX w)⟩

end

/-! ## The bytes as numbers -/

/-- Bit 7 of a byte is its sign, the half of the range it lies in. -/
theorem getLsbD_seven_eq_decide (m : Byte) : m.getLsbD 7 = decide (128 ≤ m.toNat) :=
  (getLsbD_seven m).trans (BitVec.msb_eq_decide m)

/-- Bit 0 of a byte is its parity. -/
theorem getLsbD_zero_eq_decide (m : Byte) : m.getLsbD 0 = decide (m.toNat % 2 = 1) :=
  Nat.testBit_zero m.toNat

theorem bit_toNat (c : Bool) : (bit 8 c).toNat = flagNat c := by
  cases c <;> rfl

/-- Shifting left with a bit entering at bit 0 doubles the byte and adds the bit: the two share no bit. -/
theorem shiftLeft_one_or_bit (m : Byte) (c : Bool) :
    (m <<< 1) ||| bit 8 c = BitVec.ofNat 8 (2 * m.toNat + flagNat c) := by
  have disjoint : (m <<< 1) &&& bit 8 c = 0#8 := by
    ext i bound
    cases c <;> simp +contextual [bit]
  rw [← BitVec.add_eq_or_of_and_eq_zero _ _ disjoint]
  apply BitVec.eq_of_toNat_eq
  simp only [BitVec.toNat_add, BitVec.toNat_shiftLeft, BitVec.toNat_ofNat, bit_toNat, Nat.shiftLeft_eq]
  omega

/-- Shifting right with a bit entering at bit 7 halves the byte and adds 128 times the bit: the two share no bit. -/
theorem shiftRight_one_or_bit (m : Byte) (c : Bool) :
    (m >>> 1) ||| (bit 8 c <<< 7) = BitVec.ofNat 8 (m.toNat / 2 + 128 * flagNat c) := by
  have disjoint : (m >>> 1) &&& (bit 8 c <<< 7) = 0#8 := by
    ext i bound
    interval_cases i <;> cases c <;> simp [bit]
  rw [← BitVec.add_eq_or_of_and_eq_zero _ _ disjoint]
  apply BitVec.eq_of_toNat_eq
  simp only [BitVec.toNat_add, BitVec.toNat_ushiftRight, BitVec.toNat_shiftLeft, BitVec.toNat_ofNat, bit_toNat,
    Nat.shiftRight_eq_div_pow, Nat.shiftLeft_eq]
  omega

theorem shiftLeft_one_eq_ofNat (m : Byte) : m <<< 1 = BitVec.ofNat 8 (2 * m.toNat) := by
  simpa [bit, flagNat] using shiftLeft_one_or_bit m false

theorem shiftRight_one_eq_ofNat (m : Byte) : m >>> 1 = BitVec.ofNat 8 (m.toNat / 2) := by
  simpa [bit, flagNat] using shiftRight_one_or_bit m false

theorem add_one_eq_ofNat (m : Byte) : m + 1 = BitVec.ofNat 8 ((m.toNat + 1) % 256) := by
  bv_omega

theorem sub_one_eq_ofNat (m : Byte) : m - 1 = BitVec.ofNat 8 ((m.toNat + 255) % 256) := by
  bv_omega

/-! ## The functions of the operations -/

/-- ASL doubles, and bit 7 goes to C (R181). -/
theorem shiftLeft_eq (m : Byte) (f : Flags) : shiftLeft m f =
    (BitVec.ofNat 8 (2 * m.toNat),
      { withNZ f (BitVec.ofNat 8 (2 * m.toNat)) with c := decide (128 ≤ m.toNat) }) := by
  rw [shiftLeft, Flags.setNZ_eq, getLsbD_seven_eq_decide, shiftLeft_one_eq_ofNat]
  rfl

/-- LSR halves, and bit 0 goes to C (R182). -/
theorem shiftRight_eq (m : Byte) (f : Flags) : shiftRight m f =
    (BitVec.ofNat 8 (m.toNat / 2),
      { withNZ f (BitVec.ofNat 8 (m.toNat / 2)) with c := decide (m.toNat % 2 = 1) }) := by
  rw [shiftRight, Flags.setNZ_eq, getLsbD_zero_eq_decide, shiftRight_one_eq_ofNat]
  rfl

/-- ROL doubles with the old C entering at bit 0, and bit 7 goes to C (R183). -/
theorem rotateLeft_eq (m : Byte) (f : Flags) : rotateLeft m f =
    (BitVec.ofNat 8 (2 * m.toNat + flagNat f.c),
      { withNZ f (BitVec.ofNat 8 (2 * m.toNat + flagNat f.c)) with c := decide (128 ≤ m.toNat) }) := by
  rw [rotateLeft, Flags.setNZ_eq, getLsbD_seven_eq_decide, shiftLeft_one_or_bit]
  rfl

/-- ROR halves with the old C entering at bit 7, and bit 0 goes to C (R184). -/
theorem rotateRight_eq (m : Byte) (f : Flags) : rotateRight m f =
    (BitVec.ofNat 8 (m.toNat / 2 + 128 * flagNat f.c),
      { withNZ f (BitVec.ofNat 8 (m.toNat / 2 + 128 * flagNat f.c)) with c := decide (m.toNat % 2 = 1) }) := by
  rw [rotateRight, Flags.setNZ_eq, getLsbD_zero_eq_decide, shiftRight_one_or_bit]
  rfl

/-- INC adds one modulo 256, N and Z only (R185). -/
theorem increment_eq (m : Byte) (f : Flags) : increment m f =
    (BitVec.ofNat 8 ((m.toNat + 1) % 256), withNZ f (BitVec.ofNat 8 ((m.toNat + 1) % 256))) := by
  rw [increment, Flags.setNZ_eq, add_one_eq_ofNat]

/-- DEC takes one off modulo 256, N and Z only (R186). -/
theorem decrement_eq (m : Byte) (f : Flags) : decrement m f =
    (BitVec.ofNat 8 ((m.toNat + 255) % 256), withNZ f (BitVec.ofNat 8 ((m.toNat + 255) % 256))) := by
  rw [decrement, Flags.setNZ_eq, sub_one_eq_ofNat]

/-! ## The operations -/

/-- Settles O48: each operation is one function of the byte and the flags, in the accumulator and in memory. -/
theorem shiftRotateResult : Obligations.ShiftRotateResult := by
  unfold Obligations.ShiftRotateResult
  intro left right asl lsr rol ror
  have asl_eq : asl = shiftLeft := (funext₂ shiftLeft_eq).symm
  have lsr_eq : lsr = shiftRight := (funext₂ shiftRight_eq).symm
  have rol_eq : rol = rotateLeft := (funext₂ rotateLeft_eq).symm
  have ror_eq : ror = rotateRight := (funext₂ rotateRight_eq).symm
  rw [asl_eq, lsr_eq, rol_eq, ror_eq]
  refine ⟨?aslAcc, ?aslMemory, ?lsrAcc, ?lsrMemory, ?rolAcc, ?rolMemory, ?rorAcc, ?rorMemory⟩
  case aslAcc | lsrAcc | rolAcc | rorAcc => exact ⟨rfl, fun _ => rfl⟩
  case aslMemory | lsrMemory | rolMemory | rorMemory => exact .ofArms (fun _ _ => rfl) fun _ _ _ => rfl

/-- Settles O49: INC and DEC apply one function to the byte, and INX, INY, DEX and DEY the same function to their register. -/
theorem incDecResult : Obligations.IncDecResult := by
  unfold Obligations.IncDecResult
  intro inc dec
  have inc_eq : inc = increment := (funext₂ increment_eq).symm
  have dec_eq : dec = decrement := (funext₂ decrement_eq).symm
  rw [inc_eq, dec_eq]
  refine ⟨?inc, ?dec, ?inx, ?iny, ?dex, ?dey⟩
  case inc | dec => exact .ofArms (fun _ _ => rfl) fun _ _ _ => rfl
  case inx | iny | dex | dey => exact ⟨rfl, fun _ => rfl⟩

end Sys2Proof.Machine
end

section
/-! PROOF. The results of the eight branches (43_branch.md R200 to R208). A branch row is the branch class of `exec` with the
row's flag and expected value; the class compares pages as high bytes, the row as quotients by 256. -/

namespace Sys2Proof.Machine

/-! ## The page of an address -/

/-- The high byte names the page (R147). -/
theorem hiByte_eq_iff (w u : Word) : hiByte w = hiByte u ↔ w.toNat / 256 = u.toNat / 256 := by
  rw [← BitVec.toNat_inj, hiByte_toNat, hiByte_toNat]

/-- A taken branch costs its third cycle always, its fourth when the target leaves the page (R200). -/
theorem taken_cycles (target next : Word) :
    (3 + if hiByte target != hiByte next then 1 else 0) = if target.toNat / 256 = next.toNat / 256 then 3 else 4 := by
  by_cases samePage : target.toNat / 256 = next.toNat / 256
  · simp [samePage, (hiByte_eq_iff target next).2 samePage]
  · simp [samePage, mt (hiByte_eq_iff target next).1 samePage]

/-! ## The branch class -/

section

variable {flag expected : Bool} (rel : Byte) (s : State)

/-- On its value the branch goes to the next instruction's address plus the signed offset (R200). -/
theorem branchOp_taken (holds : flag = expected) : branchOp flag expected rel s =
    .next ((s.setPc (s.pc + rel.signExtend 16)).addCycles
      (if (s.pc + rel.signExtend 16).toNat / 256 = s.pc.toNat / 256 then 3 else 4)) := by
  rw [← taken_cycles, branchOp, if_pos (beq_iff_eq.2 holds)]
  rfl

/-- On the other value the branch costs its 2 base cycles and PC stays (R200). -/
theorem branchOp_not_taken (fails : flag ≠ expected) : branchOp flag expected rel s = .next (s.addCycles 2) := by
  rw [branchOp, if_neg (mt beq_iff_eq.1 fails)]
  rfl

end

/-- A branch row from its bytes and its arm of `exec`. -/
theorem BranchRow.ofArm {build : Byte → Instr} {op : Byte} {flag : Flags → Bool} {expected : Bool}
    (bytes : ∀ rel, encode (build rel) = [op, rel])
    (arm : ∀ rel s, exec (build rel) s = branchOp (flag s.flags) expected rel s) : BranchRow build op flag expected := by
  refine fun rel => ⟨bytes rel, fun s => ?_⟩
  rw [arm]
  by_cases holds : flag s.flags = expected
  case pos => rw [branchOp_taken rel s holds, if_pos holds]; rfl
  case neg => rw [branchOp_not_taken rel s holds, if_neg holds]; rfl

/-! ## The eight branches -/

/-- Settles O50: each branch is the branch class with its own flag and expected value. -/
theorem branchResult : Obligations.BranchResult := by
  unfold Obligations.BranchResult
  refine ⟨?bpl, ?bmi, ?bvc, ?bvs, ?bcc, ?bcs, ?bne, ?beq⟩
  case bpl | bmi | bvc | bvs | bcc | bcs | bne | beq => exact .ofArm (fun _ => rfl) fun _ _ => rfl

end Sys2Proof.Machine
end

section
/-! PROOF. The stack (44_stack_jump_interrupt.md R210). The four operations are their equations on RAM and SP; a pull after a
push finds the byte because SP comes back to the slot that was written, also across the wrap of page 1. -/

namespace Sys2Proof.Machine

/-- A pull takes back the byte that a push left, and SP with it (R210). -/
theorem State.pull_push (s : State) (b : Byte) :
    (s.push b).pull = .ok (b, s.setRam (s.ram.write (0x100 + s.sp.toNat) b)) := by
  have sp_restored : s.sp - 1 + 1 = s.sp := BitVec.sub_add_cancel _ _
  rw [State.push_eq, State.pull_eq, State.setSp_sp, sp_restored, State.setSp_ram, State.setRam_ram, Memory.read_write_same]
  rfl

/-- Settles O41: one equation for each stack operation. -/
theorem stackPushThenPull : Obligations.StackPushThenPull := by
  unfold Obligations.StackPushThenPull
  exact fun s b w => ⟨s.push_eq b, s.pull_eq, s.pull_push b, s.pushWord_eq w, s.pullWord_eq⟩

end Sys2Proof.Machine
end

section
/-! PROOF. The results of LDA, LDX and LDY (45_load_store_transfer_flag.md R230 to R232). A load is its register's write with
N and Z, one for each register; its rows are the immediate class and the read class with that one effect. -/

namespace Sys2Proof.Machine

theorem setXNZ_eq (v : Byte) (s : State) : setXNZ v s = { s with x := v, flags := withNZ s.flags v } := by
  rw [setXNZ, Flags.setNZ_eq]
  rfl

theorem setYNZ_eq (v : Byte) (s : State) : setYNZ v s = { s with y := v, flags := withNZ s.flags v } := by
  rw [setYNZ, Flags.setNZ_eq]
  rfl

/-- Settles O56: each load writes its register and N, Z from the operand, by one effect for all its rows. -/
theorem loadResult : Obligations.LoadResult := by
  unfold Obligations.LoadResult
  intro toX toY
  have toX_eq (m : Byte) (s : State) : ldx m s = toX s m := setXNZ_eq m s
  have toY_eq (m : Byte) (s : State) : ldy m s = toY s m := setYNZ_eq m s
  refine ⟨.ofArms (f := lda) (fun _ _ => rfl) (fun _ _ _ => rfl) setANZ_eq,
    ?ldxImm, ?ldxZp, ?ldxZpY, ?ldxAbs, ?ldxAbsY, ?ldyImm, ?ldyZp, ?ldyZpX, ?ldyAbs, ?ldyAbsX⟩
  case ldxImm | ldxZp | ldxZpY | ldxAbs | ldxAbsY => exact fun _ => .ofArm (f := ldx) rfl (fun _ => rfl) toX_eq
  case ldyImm | ldyZp | ldyZpX | ldyAbs | ldyAbsX => exact fun _ => .ofArm (f := ldy) rfl (fun _ => rfl) toY_eq

end Sys2Proof.Machine
end

section
/-! PROOF. The decoder and the encoder (30_encoding.md R100 to R107). An instruction stands in the InstructionTable under the
first byte of its encoding, and every entry of the table encodes back to the byte it stands under. -/

namespace Sys2Proof

/-! ## The decoder, by the format of the entry -/

section
variable {op : Byte}

theorem decode_f1 {i : Instr} (entry : lookup op = .f1 i) (rest : List Byte) : decode (op :: rest) = .ok (i, rest) := by
  simp only [decode, entry]

theorem decode_f2 {build : Byte → Instr} (entry : lookup op = .f2 build) (b : Byte) (rest : List Byte) :
    decode (op :: b :: rest) = .ok (build b, rest) := by
  simp only [decode, entry]

theorem decode_f3 {build : Word → Instr} (entry : lookup op = .f3 build) (lo hi : Byte) (rest : List Byte) :
    decode (op :: lo :: hi :: rest) = .ok (build (Machine.wordOf hi lo), rest) := by
  simp only [decode, entry]

theorem decode_f2_short {build : Byte → Instr} (entry : lookup op = .f2 build) :
    decode [op] = .error (.truncated op) := by
  simp only [decode, entry]

theorem decode_f3_short {build : Word → Instr} (entry : lookup op = .f3 build) {rest : List Byte}
    (short : rest.length < 2) : decode (op :: rest) = .error (.truncated op) := by
  match rest, short with
  | [], _ => simp only [decode, entry]
  | [_], _ => simp only [decode, entry]

end

/-! ## The unassigned bytes -/

/-- Whether an entry is one of the 105 with no mnemonic. -/
def Entry.isUnassigned : Entry → Bool
  | .f1 (.unassigned _) => true
  | _ => false

/-- The table leaves unassigned the bytes that R107 lists. -/
theorem lookup_isUnassigned (op : Byte) : (lookup op).isUnassigned = unassignedOpcodes.contains op := by
  have table : ∀ n : Fin 256,
      (lookup (BitVec.ofFin n)).isUnassigned = unassignedOpcodes.contains (BitVec.ofFin n) := by decide +kernel
  exact table op.toFin

/-- An instruction is well formed unless it carries an assigned byte as unassigned (R107). -/
theorem Instr.wf_iff (i : Instr) : i.wf = true ↔ ∀ op, i = .unassigned op → op ∈ unassignedOpcodes := by
  cases i
  case unassigned op => simp [Instr.wf]
  all_goals exact iff_of_true rfl nofun

/-! ## Every entry encodes to its byte -/

/-- What an entry builds encodes to the byte the entry stands under, then the operand bytes (R101, R103). -/
def Entry.Encodes (op : Byte) : Entry → Prop
  | .f1 i => encode i = [op]
  | .f2 build => ∀ b, encode (build b) = [op, b]
  | .f3 build => ∀ w, encode (build w) = encodeWord op w

theorem lookup_encodes (op : Byte) : (lookup op).Encodes op := by
  unfold lookup
  split
  all_goals
    dsimp only [Entry.Encodes]
    intros
    rfl

/-! ## Every well-formed instruction has an entry -/

/-- An instruction under the byte it encodes to, by the format of its entry. -/
inductive Entered (i : Instr) : Prop where
  | f1 (op : Byte) (bytes : encode i = [op]) (entry : lookup op = .f1 i)
  | f2 (op b : Byte) (build : Byte → Instr) (bytes : encode i = [op, b]) (entry : lookup op = .f2 build)
    (built : build b = i)
  | f3 (op : Byte) (w : Word) (build : Word → Instr) (bytes : encode i = encodeWord op w) (entry : lookup op = .f3 build)
    (built : build w = i)

/-- A listed byte has its own unassigned entry (R107). -/
theorem lookup_of_unassigned {op : Byte} (listed : op ∈ unassignedOpcodes) : lookup op = .f1 (.unassigned op) := by
  have unassigned : (lookup op).isUnassigned = true := by
    rw [lookup_isUnassigned]
    exact List.contains_iff_mem.2 listed
  have encodes := lookup_encodes op
  generalize lookup op = entry at unassigned encodes
  match entry with
  | .f1 (.unassigned other) =>
    obtain rfl : other = op := List.head_eq_of_cons_eq encodes
    rfl

theorem Instr.entered {i : Instr} (wf : i.wf = true) : Entered i := by
  cases i
  case unassigned op => exact .f1 op rfl (lookup_of_unassigned ((Instr.wf_iff _).1 wf op rfl))
  case aslAcc | lsrAcc | rolAcc | rorAcc | inx | iny | dex | dey | pha | php | pla | plp | rts | brk | rti | tax | tay |
      txa | tya | tsx | txs | clc | sec | cli | sei | clv | cld | sed | nop =>
    exact .f1 _ rfl rfl
  case adcAbs w | adcAbsX w | adcAbsY w | sbcAbs w | sbcAbsX w | sbcAbsY w | cmpAbs w | cmpAbsX w | cmpAbsY w | cpxAbs w |
      cpyAbs w | andAbs w | andAbsX w | andAbsY w | oraAbs w | oraAbsX w | oraAbsY w | eorAbs w | eorAbsX w | eorAbsY w |
      bitAbs w | aslAbs w | aslAbsX w | lsrAbs w | lsrAbsX w | rolAbs w | rolAbsX w | rorAbs w | rorAbsX w | incAbs w |
      incAbsX w | decAbs w | decAbsX w | jsr w | jmpAbs w | jmpInd w | ldaAbs w | ldaAbsX w | ldaAbsY w | ldxAbs w |
      ldxAbsY w | ldyAbs w | ldyAbsX w | staAbs w | staAbsX w | staAbsY w | stxAbs w | styAbs w =>
    exact .f3 _ w _ rfl rfl rfl
  all_goals exact .f2 _ _ _ rfl rfl rfl

/-! ## The statements -/

/-- Settles O1: the entry under an encoding's first byte reads its operand bytes back into the instruction. -/
theorem decodeInvertsEncode : Obligations.DecodeInvertsEncode := by
  unfold Obligations.DecodeInvertsEncode
  intro i rest wf
  rcases Instr.entered wf with ⟨op, bytes, entry⟩ | ⟨op, b, build, bytes, entry, rfl⟩ | ⟨op, w, build, bytes, entry, rfl⟩
  · rw [bytes]
    exact decode_f1 entry rest
  · rw [bytes]
    exact decode_f2 entry b rest
  · rw [bytes]
    exact (decode_f3 entry _ _ rest).trans (by rw [Machine.wordOf_hiByte_loByte])

/-- What an entry builds with operand bytes is well formed: an unassigned instruction has none. -/
theorem Instr.wf_of_operand {i : Instr} {op b : Byte} {more : List Byte} (bytes : encode i = op :: b :: more) :
    i.wf = true := by
  rw [Instr.wf_iff]
  rintro other rfl
  cases bytes

theorem Instr.wf_of_entry {op : Byte} {i : Instr} (entry : lookup op = .f1 i) : i.wf = true := by
  rw [Instr.wf_iff]
  rintro other rfl
  have encodes := lookup_encodes op
  have unassigned := lookup_isUnassigned op
  rw [entry] at encodes unassigned
  obtain rfl : other = op := List.head_eq_of_cons_eq encodes
  exact List.contains_iff_mem.1 unassigned.symm

/-- Settles O2: the entry that a byte selects builds a well-formed instruction, which encodes to what was read. -/
theorem encodeInvertsDecode : Obligations.EncodeInvertsDecode := by
  unfold Obligations.EncodeInvertsDecode
  intro bytes rest i decoded
  match bytes with
  | [] => cases decoded
  | op :: operand =>
    have encodes := lookup_encodes op
    cases entry : lookup op with
    | f1 j =>
      rw [decode_f1 entry] at decoded
      rw [entry] at encodes
      cases decoded
      exact ⟨Instr.wf_of_entry entry, congrArg (· ++ rest) encodes.symm⟩
    | f2 build =>
      rw [entry] at encodes
      match operand with
      | [] => rw [decode_f2_short entry] at decoded; cases decoded
      | b :: rest =>
        rw [decode_f2 entry] at decoded
        cases decoded
        exact ⟨Instr.wf_of_operand (encodes b), congrArg (· ++ rest) (encodes b).symm⟩
    | f3 build =>
      rw [entry] at encodes
      match operand with
      | [] => rw [decode_f3_short entry (by simp)] at decoded; cases decoded
      | [_] => rw [decode_f3_short entry (by simp)] at decoded; cases decoded
      | lo :: hi :: rest =>
        rw [decode_f3 entry] at decoded
        cases decoded
        have bytes := encodes (Machine.wordOf hi lo)
        rw [encodeWord, Machine.loByte_wordOf, Machine.hiByte_wordOf] at bytes
        exact ⟨Instr.wf_of_operand bytes, congrArg (· ++ rest) bytes.symm⟩

/-- Settles O3: each format of entry decodes as soon as its operand bytes are there. -/
theorem decodeFailsOnlyWhenTruncated : Obligations.DecodeFailsOnlyWhenTruncated := by
  unfold Obligations.DecodeFailsOnlyWhenTruncated
  intro bytes e failed
  match bytes with
  | [] => cases failed; exact .inl ⟨rfl, rfl⟩
  | op :: operand =>
    refine .inr ⟨op, operand, rfl, ?_⟩
    cases entry : lookup op with
    | f1 i => rw [decode_f1 entry] at failed; cases failed
    | f2 build =>
      match operand with
      | [] =>
        rw [decode_f2_short entry] at failed
        cases failed
        simp [opcodeLength, entry]
      | b :: rest => rw [decode_f2 entry] at failed; cases failed
    | f3 build =>
      rcases Nat.lt_or_ge operand.length 2 with short | long
      · rw [decode_f3_short entry short] at failed
        cases failed
        refine ⟨?_, rfl⟩
        rw [opcodeLength, entry]
        exact Nat.succ_lt_succ short
      · match operand, long with
        | lo :: hi :: rest, _ => rw [decode_f3 entry] at failed; cases failed

/-- Settles O4: R107's bytes are the well-formed unassigned ones, and decoding undoes their one-byte encoding. -/
theorem unassignedBytesOfTheTable : Obligations.UnassignedBytesOfTheTable := by
  unfold Obligations.UnassignedBytesOfTheTable
  intro op rest
  change op ∈ unassignedOpcodes ↔ _
  constructor
  · intro listed
    exact decode_f1 (lookup_of_unassigned listed) rest
  · intro decoded
    exact (Instr.wf_iff _).1 (encodeInvertsDecode _ _ _ decoded).1 op rfl

/-- Settles O5: each word is read by the table as it stands. -/
theorem opcodeWordsDecode : Obligations.OpcodeWordsDecode := by
  unfold Obligations.OpcodeWordsDecode
  refine ⟨?_, ?_, ?_, ?_, ?_, ?_, ?_, ?_, ?_, ?_, ?_, ?_, ?_⟩
  all_goals rfl

end Sys2Proof
end

section
/-! PROOF. What the CPU reads outside RAM (20_memory.md sections 1 and 5): PRG through the mapper (R55, R59), the open reads
(R54, R57, R77, R78), PPUSTATUS (R76) and PPUDATA (R79, R80). -/

namespace Sys2Proof.Machine

/-! ## PRG and the open reads -/

/-- Settles O27: the mapped offset is R59's, for each number of banks. -/
theorem prgMapping : Obligations.PrgMapping := by
  unfold Obligations.PrgMapping
  refine fun s addr h => ⟨fun one => ?_, fun two => ?_⟩
  · rw [s.busRead_prg h, Cartridge.prgOffset, one]
  · rw [s.busRead_prg h, Cartridge.prgOffset, two]

theorem State.busRead_register (s : State) {addr : Word} (r : BitVec 3) (h : inPpuWindow addr)
    (k : addr.toNat % 8 = r.toNat) : s.busRead addr = s.registerRead r := by
  rw [s.busRead_ppu h.1 h.2, ppuRegister_eq k]

/-- The write-only registers answer a draw of `PPU_OPEN_BUS` (R78). -/
theorem State.registerRead_open (s : State) {r : BitVec 3} (h : r.toNat ∈ [0, 1, 3, 5, 6]) :
    s.registerRead r = .ok s.drawOpenBus := by
  obtain ⟨notStatus, notOamData, notData⟩ : r ≠ 2 ∧ r ≠ 4 ∧ r ≠ 7 := by
    refine ⟨?_, ?_, ?_⟩ <;> rintro rfl <;> simp at h
  rw [State.registerRead, if_neg notStatus, if_neg notOamData, if_neg notData]

/-- Settles O28: each range is one region of the bus, or one kind of register of the window. -/
theorem openReads : Obligations.OpenReads := by
  unfold Obligations.OpenReads
  refine fun s addr => ⟨?cartLow, ?openBus, ?oamData, ?stub⟩
  case cartLow => exact fun low high => s.busRead_cartLow low high
  case openBus =>
    intro window register
    rw [← ppuRegister_toNat addr] at register
    rw [s.busRead_ppu window.1 window.2, s.registerRead_open register]
    rfl
  case oamData => exact fun window register => s.busRead_register 4 window register
  case stub =>
    exact fun v low high => ⟨s.busRead_stub (by omega) high, s.busWrite_ignored v (by omega)⟩

/-! ## PPUSTATUS -/

/-- The byte of a PPUSTATUS read from the status, the open bits and whether the PPU stands in the race window (R76). -/
def statusValue (status openBits : Byte) (racing : Bool) : Byte :=
  let value := (status &&& 0xE0) ||| (openBits &&& 0x1F)
  if racing then value &&& 0x7F else value

theorem State.readStatus_eq (s : State) : s.readStatus =
    (statusValue s.ppu.status (Config.ppuOpenBus s.draws) s.ppu.racing,
      (s.setPpu s.ppu.afterStatusRead).setDraws (s.draws + 1)) := rfl

theorem statusValue_sprites (status openBits : Byte) (racing : Bool) :
    (statusValue status openBits racing).extractLsb' 5 2 = status.extractLsb' 5 2 := by
  ext i bound
  cases racing <;> interval_cases i <;> simp [statusValue]

theorem statusValue_openBits (status openBits : Byte) (racing : Bool) :
    (statusValue status openBits racing).extractLsb' 0 5 = openBits.extractLsb' 0 5 := by
  ext i bound
  cases racing <;> interval_cases i <;> simp [statusValue]

theorem statusValue_vblank (status openBits : Byte) (racing : Bool) :
    (statusValue status openBits racing).getLsbD 7 = (status.getLsbD 7 && !racing) := by
  cases racing <;> simp [statusValue]

/-- Settles O30: the value read, field by field, and the one state after the read. -/
theorem ppuStatusRead : Obligations.PpuStatusRead := by
  unfold Obligations.PpuStatusRead
  intro s addr window register
  refine ⟨_, _, ?read, statusValue_sprites _ _ _, statusValue_openBits _ _ _, statusValue_vblank _ _ s.ppu.racing, rfl⟩
  rw [s.busRead_register 2 window register]
  exact congrArg Except.ok s.readStatus_eq

/-! ## PPUDATA -/

theorem State.ppuMemoryRead_chr (s : State) {a : BitVec 14} (h : a.toNat < 0x2000)
    (inside : a.toNat < 8192 * s.cart.chrUnits) : s.ppuMemoryRead a = .ok (s.cart.chr.read a.toNat) := by
  rw [State.ppuMemoryRead, if_pos h, Cartridge.readChr, readStore, chrOffset, Cartridge.chrLength, if_pos inside]
  rfl

theorem State.ppuMemoryRead_noChr (s : State) {a : BitVec 14} (h : a.toNat < 0x2000) (noChr : s.cart.chrUnits = 0) :
    s.ppuMemoryRead a = .error (s.raise (.mapperOutOfRange (a.setWidth 16))) := by
  have outside : ¬ a.toNat < 8192 * s.cart.chrUnits := by omega
  rw [State.ppuMemoryRead, if_pos h, Cartridge.readChr, readStore, chrOffset, Cartridge.chrLength, if_neg outside]
  rfl

theorem State.ppuMemoryRead_memory (s : State) {a : BitVec 14} (h : 0x2000 ≤ a.toNat) :
    s.ppuMemoryRead a = .ok (Config.ppuMemoryRead s.ppu.vram s.ppu.memStores a) :=
  if_neg (Nat.not_lt.mpr h)

/-- Below the palette the byte goes to the buffer and the buffer's old byte is answered (R80). -/
theorem State.readPpuData_behind {s : State} {m : Byte} (read : s.ppuMemoryRead s.ppu.address = .ok m)
    (h : s.ppu.address.toNat < 0x3F00) :
    s.readPpuData = .ok (s.ppu.readBuf, s.setPpu { s.ppu with readBuf := m }.incV) := by
  simp only [State.readPpuData, read, bind, Except.bind, if_pos h]
  rfl

/-- At the palette the byte is answered at once and the buffer is filled from under it (R80). -/
theorem State.readPpuData_palette {s : State} {m under : Byte} (read : s.ppuMemoryRead s.ppu.address = .ok m)
    (readUnder : s.ppuMemoryRead (s.ppu.address - 0x1000) = .ok under) (h : 0x3F00 ≤ s.ppu.address.toNat) :
    s.readPpuData = .ok (m, s.setPpu { s.ppu with readBuf := under }.incV) := by
  simp only [State.readPpuData, read, readUnder, bind, Except.bind, if_neg (Nat.not_lt.mpr h)]
  rfl

theorem State.readPpuData_error {s : State} {e : Fault} (read : s.ppuMemoryRead s.ppu.address = .error e) :
    s.readPpuData = .error e := by
  simp only [State.readPpuData, read, bind, Except.bind]

/-- v's advance as a sum modulo 0x8000 (R79). -/
theorem Ppu.incV_eq (p : Ppu) :
    p.incV = { p with v := BitVec.ofNat 15 (p.v.toNat + if p.ctrl.getLsbD 2 then 32 else 1) } := by
  have sum : p.v + (if p.ctrl.getLsbD 2 then 32 else 1) =
      BitVec.ofNat 15 (p.v.toNat + if p.ctrl.getLsbD 2 then 32 else 1) := by
    split <;> bv_omega
  rw [Ppu.incV, sum]

/-- Settles O31: where the byte comes from, by the range of v's address, and what the buffer then does. -/
theorem ppuDataRead : Obligations.PpuDataRead := by
  unfold Obligations.PpuDataRead
  intro s addr window register a next memory
  have read : s.busRead addr = s.readPpuData := s.busRead_register 7 window register
  have incV (m : Byte) : s.setPpu { s.ppu with readBuf := m }.incV =
      { s with ppu := { s.ppu with readBuf := m, v := next } } := congrArg s.setPpu (Ppu.incV_eq _)
  rw [read]
  refine ⟨fun low inside => ?chr, fun low noChr => ?noChr, fun high low => ?memory, fun high => ?palette⟩
  case chr =>
    rw [State.readPpuData_behind (s.ppuMemoryRead_chr low inside) (Nat.lt_trans low (by decide)), incV]
    rfl
  case noChr =>
    rw [State.readPpuData_error (s.ppuMemoryRead_noChr low noChr), State.raise_eq, ← BitVec.ofNat_toNat]
    rfl
  case memory =>
    rw [State.readPpuData_behind (s.ppuMemoryRead_memory high) low, incV]
    rfl
  case palette =>
    have above : 0x2000 ≤ s.ppu.address.toNat := Nat.le_trans (by decide) high
    have under : 0x2000 ≤ (s.ppu.address - 0x1000).toNat := by
      change 0x3F00 ≤ s.ppu.address.toNat at high
      bv_omega
    rw [State.readPpuData_palette (s.ppuMemoryRead_memory above) (s.ppuMemoryRead_memory under) high, incV]
    rfl

end Sys2Proof.Machine
end

section
/-! PROOF. PPU register writes after the warm-up (20_memory.md section 5): PPUCTRL and PPUMASK (R81, R82), PPUSCROLL and
PPUADDR with their bit placements in t (R85, R86), and PPUDATA (R87). -/

namespace Sys2Proof.Machine

/-- Past the warm-up the four registers that it locks take their write (R75). -/
theorem Ppu.registerWrite_unlocked (p : Ppu) (d : Byte) {cyc : Nat} (h : 29658 < cyc) :
    p.registerWrite 0 d cyc = p.writeCtrl d ∧ p.registerWrite 1 d cyc = p.writeMask d ∧
      p.registerWrite 5 d cyc = p.writeScroll d ∧ p.registerWrite 6 d cyc = p.writeAddr d := by
  have unlocked : ¬ cyc ≤ warmUpLast := Nat.not_le.mpr h
  simp [Ppu.registerWrite, unlocked]

/-- Settles O32: past the warm-up both registers take their byte. -/
theorem ppuCtrlMaskWrites : Obligations.PpuCtrlMaskWrites := by
  unfold Obligations.PpuCtrlMaskWrites
  intro s addr d window past
  obtain ⟨ctrl, mask, -, -⟩ := s.ppu.registerWrite_unlocked d past
  refine ⟨fun register => ⟨(s.ppu.writeCtrl d).t, ?write, fun k bound => ?bits⟩, fun register => ?mask⟩
  case write =>
    rw [s.busWrite_register 0 d window register, ctrl]
    rfl
  case bits =>
    simp only [Ppu.writeCtrl, BitVec.getLsbD_append, BitVec.getLsbD_extractLsb']
    interval_cases k <;> simp
  case mask =>
    rw [s.busWrite_register 1 d window register, mask]
    rfl

theorem Ppu.writeScroll_first {p : Ppu} (d : Byte) (first : p.w = false) : p.writeScroll d =
    { p with t := p.t.extractLsb' 5 10 ++ d.extractLsb' 3 5, fineX := d.extractLsb' 0 3, w := true } :=
  if_neg (by simp [first])

theorem Ppu.writeScroll_second {p : Ppu} (d : Byte) (second : p.w = true) : p.writeScroll d =
    { p with
      t := d.extractLsb' 0 3 ++ p.t.extractLsb' 10 2 ++ d.extractLsb' 3 5 ++ p.t.extractLsb' 0 5
      w := false } :=
  if_pos second

theorem Ppu.writeAddr_first {p : Ppu} (d : Byte) (first : p.w = false) : p.writeAddr d =
    { p with t := 0#1 ++ d.extractLsb' 0 6 ++ p.t.extractLsb' 0 8, w := true } :=
  if_neg (by simp [first])

theorem Ppu.writeAddr_second {p : Ppu} (d : Byte) (second : p.w = true) : p.writeAddr d =
    { p with t := p.t.extractLsb' 8 7 ++ d, v := p.t.extractLsb' 8 7 ++ d, w := false } :=
  if_pos second

/-- Settles O34: the four writes, each with its t bit by bit. -/
theorem ppuScrollAddrWrites : Obligations.PpuScrollAddrWrites := by
  unfold Obligations.PpuScrollAddrWrites
  intro s addr d window past
  obtain ⟨-, -, scroll, address⟩ := s.ppu.registerWrite_unlocked d past
  have scrollWrite (register : addr.toNat % 8 = 5) : s.busWrite addr d = s.setPpu (s.ppu.writeScroll d) := by
    rw [s.busWrite_register 5 d window register, scroll]
  have addressWrite (register : addr.toNat % 8 = 6) : s.busWrite addr d = s.setPpu (s.ppu.writeAddr d) := by
    rw [s.busWrite_register 6 d window register, address]
  refine ⟨fun register first => ⟨(s.ppu.writeScroll d).t, ?scrollFirst, fun k bound => ?scrollFirstBits⟩,
    fun register second => ⟨(s.ppu.writeScroll d).t, ?scrollSecond, fun k bound => ?scrollSecondBits⟩,
    fun register first => ⟨(s.ppu.writeAddr d).t, ?addressFirst, fun k bound => ?addressFirstBits⟩,
    fun register second => ⟨(s.ppu.writeAddr d).t, ?addressSecond, fun k bound => ?addressSecondBits⟩⟩
  case scrollFirst =>
    have fineX : BitVec.ofNat 3 d.toNat = d.extractLsb' 0 3 := by
      rw [BitVec.ofNat_toNat, BitVec.setWidth_eq_extractLsb' (by decide)]
    rw [scrollWrite register, Ppu.writeScroll_first d first, fineX]
    rfl
  case scrollSecond =>
    rw [scrollWrite register, Ppu.writeScroll_second d second]
    rfl
  case addressFirst =>
    rw [addressWrite register, Ppu.writeAddr_first d first]
    rfl
  case addressSecond =>
    rw [addressWrite register, Ppu.writeAddr_second d second]
    rfl
  case scrollFirstBits =>
    rw [Ppu.writeScroll_first d first]
    simp only [BitVec.getLsbD_append, BitVec.getLsbD_extractLsb']
    interval_cases k <;> simp
  case scrollSecondBits =>
    rw [Ppu.writeScroll_second d second]
    simp only [BitVec.getLsbD_append, BitVec.getLsbD_extractLsb']
    interval_cases k <;> simp
  case addressFirstBits =>
    rw [Ppu.writeAddr_first d first]
    simp only [BitVec.getLsbD_append, BitVec.getLsbD_extractLsb']
    interval_cases k <;> simp
  case addressSecondBits =>
    rw [Ppu.writeAddr_second d second]
    simp only [BitVec.getLsbD_append, BitVec.getLsbD_extractLsb']
    interval_cases k <;> simp

theorem Ppu.memoryWrite_ignored {p : Ppu} {a : BitVec 14} (d : Byte) (h : a.toNat < 0x2000) : p.memoryWrite a d = p :=
  if_pos h

theorem Ppu.memoryWrite_stored {p : Ppu} {a : BitVec 14} (d : Byte) (h : 0x2000 ≤ a.toNat) : p.memoryWrite a d =
    { p with
      vram := storeVram p.vram (Config.ppuMemoryStore p.vram p.memStores a d)
      memStores := (a, d) :: p.memStores } :=
  if_neg (Nat.not_lt.mpr h)

/-- Settles O35: a store into the PPU's address space, then v's advance; a PPUSTATUS write is none. -/
theorem ppuDataWrite : Obligations.PpuDataWrite := by
  unfold Obligations.PpuDataWrite
  intro s addr d window a next
  have write (register : addr.toNat % 8 = 7) :
      s.busWrite addr d = s.setPpu (s.ppu.memoryWrite s.ppu.address d).incV :=
    s.busWrite_register 7 d window register
  refine ⟨fun register low => ?ignored,
    fun register high => ⟨storeVram s.ppu.vram (Config.ppuMemoryStore s.ppu.vram s.ppu.memStores a d), ?stored,
      fun k => storeVram_read_ne⟩, fun register => ?status⟩
  case ignored =>
    rw [write register, Ppu.memoryWrite_ignored (a := s.ppu.address) d low, Ppu.incV_eq]
    rfl
  case stored =>
    rw [write register, Ppu.memoryWrite_stored (a := s.ppu.address) d high, Ppu.incV_eq]
    rfl
  case status => exact s.busWrite_register 2 d window register

end Sys2Proof.Machine
end

section
/-! PROOF. The dots of the PPU (60_exceptions.md sections 5 and 6): the counters' advance (R320, R323), the events of a
position (R321, R322), the length of a frame (R317). Dots are counted by `Ppu.position`, which a dot moves by one until the
frame's last. -/

namespace Sys2Proof.Machine

/-! ## The counters -/

theorem Ppu.skipsDot_iff (p : Ppu) : p.skipsDot = true ↔
    p.scanline = 261 ∧ p.dot = 339 ∧ p.oddFrame = true ∧ (p.mask.getLsbD 3 = true ∨ p.mask.getLsbD 4 = true) := by
  simp only [Ppu.skipsDot, Ppu.rendering, Bool.and_eq_true, Bool.or_eq_true, beq_iff_eq, and_assoc]

theorem Ppu.nextLine_last {p : Ppu} (h : p.scanline = 261) (dot : Nat) :
    p.nextLine dot = { p with dot := dot, scanline := 0, oddFrame := !p.oddFrame } :=
  if_pos (by omega)

theorem Ppu.nextLine_within {p : Ppu} (h : p.scanline < 261) (dot : Nat) :
    p.nextLine dot = { p with dot := dot, scanline := p.scanline + 1 } :=
  if_neg (by omega)

/-- All that one advance of the counters can do: skip to the next frame, go one on, go to the next line, or wrap from the last
line (R320, R323). -/
theorem Ppu.moveDot_cases {p : Ppu} (lines : p.scanline ≤ 261) (dots : p.dot ≤ 340) :
    (p.skipsDot = true ∧ p.moveDot = { p with dot := 0, scanline := 0, oddFrame := !p.oddFrame }) ∨
    (p.skipsDot = false ∧ p.dot < 340 ∧ p.moveDot = { p with dot := p.dot + 1 }) ∨
    (p.dot = 340 ∧ p.scanline < 261 ∧ p.moveDot = { p with dot := 0, scanline := p.scanline + 1 }) ∨
    (p.dot = 340 ∧ p.scanline = 261 ∧ p.moveDot = { p with dot := 0, scanline := 0, oddFrame := !p.oddFrame }) := by
  cases skips : p.skipsDot with
  | true => exact .inl ⟨rfl, (if_pos skips).trans (Ppu.nextLine_last ((p.skipsDot_iff).1 skips).1 0)⟩
  | false =>
    refine .inr ?_
    have advance : p.moveDot = if 340 < p.dot + 1 then p.nextLine (p.dot + 1 - 341) else { p with dot := p.dot + 1 } := by
      rw [Ppu.moveDot, if_neg (by simp [skips])]
    rcases Nat.lt_or_eq_of_le dots with inLine | lineEnd
    · exact .inl ⟨rfl, inLine, advance.trans (if_neg (by omega))⟩
    · rw [if_pos (by omega), lineEnd] at advance
      rcases Nat.lt_or_eq_of_le lines with within | last
      · exact .inr (.inl ⟨lineEnd, within, advance.trans (Ppu.nextLine_within within 0)⟩)
      · exact .inr (.inr ⟨lineEnd, last, advance.trans (Ppu.nextLine_last last 0)⟩)

/-- Settles O36: the position events leave the counters, and their advance is one of four. -/
theorem dotAdvance : Obligations.DotAdvance := by
  unfold Obligations.DotAdvance
  intro p lines dots q skip
  obtain ⟨scanline, dot, oddFrame⟩ := p.moveDot.positionEvents_counters
  simp only [q, skip, ← Ppu.skipsDot_iff, Ppu.stepDot, scanline, dot, oddFrame]
  rcases Ppu.moveDot_cases lines dots with ⟨skips, move⟩ | ⟨goesOn, inLine, move⟩ | ⟨lineEnd, within, move⟩ |
    ⟨lineEnd, last, move⟩
  · obtain ⟨-, dot339, odd, -⟩ := p.skipsDot_iff.1 skips
    simp [move, skips, dot339, odd]
  · simp [move, goesOn, inLine, Nat.ne_of_lt inLine]
  · have notSkip : ¬ p.skipsDot = true := fun skips => by have := (p.skipsDot_iff.1 skips).2.1; omega
    simp [move, notSkip, lineEnd, Nat.ne_of_lt within]
  · have notSkip : ¬ p.skipsDot = true := fun skips => by have := (p.skipsDot_iff.1 skips).2.1; omega
    simp [move, notSkip, lineEnd, last]

/-! ## What a dot leaves -/

theorem Ppu.moveDot_frame (p : Ppu) :
    p.moveDot = { p with scanline := p.moveDot.scanline, dot := p.moveDot.dot, oddFrame := p.moveDot.oddFrame } := by
  unfold Ppu.moveDot Ppu.nextLine
  (repeat' split) <;> rfl

theorem Ppu.positionEvents_frame (p : Ppu) :
    p.positionEvents = { p with status := p.positionEvents.status, suppress := p.positionEvents.suppress } := by
  unfold Ppu.positionEvents
  (repeat' split) <;> rfl

/-- A dot changes the status, the counters, suppress and parity (R320 to R323). -/
theorem Ppu.stepDot_frame (p : Ppu) : p.stepDot = { p with
    status := p.stepDot.status
    scanline := p.stepDot.scanline
    dot := p.stepDot.dot
    suppress := p.stepDot.suppress
    oddFrame := p.stepDot.oddFrame } := by
  rw [Ppu.stepDot, Ppu.positionEvents_frame p.moveDot, Ppu.moveDot_frame p]

theorem Ppu.stepDot_nmiPrev (p : Ppu) : p.stepDot.nmiPrev = p.nmiPrev := by rw [p.stepDot_frame]

/-! ## The events of a position -/

theorem Ppu.positionEvents_elsewhere {p : Ppu} (h : ¬ (p.dot = 1 ∧ (p.scanline = 241 ∨ p.scanline = 261))) :
    p.positionEvents = p := by
  rw [Ppu.positionEvents, if_neg (by tauto), if_neg (by tauto)]

/-- Dot 1 of a line is reached from its dot 0. -/
theorem Ppu.stepDot_of_dot_zero {p : Ppu} (h : p.dot = 0) : p.stepDot = Ppu.positionEvents { p with dot := 1 } := by
  have goesOn : ¬ p.skipsDot = true := fun skips => by have := (p.skipsDot_iff.1 skips).2.1; omega
  rw [Ppu.stepDot, Ppu.moveDot, if_neg goesOn, if_neg (by omega), h]

/-- Arriving at (241, 1) (R321). -/
theorem Ppu.stepDot_vblank {p : Ppu} (line : p.scanline = 241) (start : p.dot = 0) : p.stepDot =
    if p.suppress then { p with dot := 1, suppress := false } else { p with dot := 1, status := p.status ||| 0x80 } :=
  (Ppu.stepDot_of_dot_zero start).trans (if_pos ⟨line, rfl⟩)

/-- Arriving at (261, 1) (R322). -/
theorem Ppu.stepDot_clear {p : Ppu} (line : p.scanline = 261) (start : p.dot = 0) :
    p.stepDot = { p with dot := 1, status := p.status &&& 0x1F } :=
  (Ppu.stepDot_of_dot_zero start).trans ((if_neg fun h => by simp [line] at h).trans (if_pos ⟨line, rfl⟩))

/-- Away from dot 0 of lines 241 and 261 a dot is the counters' advance alone. -/
theorem Ppu.stepDot_elsewhere {p : Ppu} (lines : p.scanline ≤ 261) (dots : p.dot ≤ 340)
    (h : ¬ (p.dot = 0 ∧ (p.scanline = 241 ∨ p.scanline = 261))) : p.stepDot = p.moveDot := by
  refine Ppu.positionEvents_elsewhere ?_
  rcases Ppu.moveDot_cases lines dots with ⟨-, move⟩ | ⟨-, -, move⟩ | ⟨-, -, move⟩ | ⟨-, -, move⟩ <;> rw [move]
  · simp
  · simpa using h
  · simp
  · simp

/-- Settles O37: the two events, each at dot 1 of its line, and no other. -/
theorem vblankFlagEvents : Obligations.VblankFlagEvents := by
  unfold Obligations.VblankFlagEvents
  intro p lines dots
  refine ⟨fun line start free => ?sets, fun line start suppressed => ?suppressed, fun line start => ?clears,
    fun elsewhere => ?elsewhere⟩
  case sets => rw [Ppu.stepDot_vblank line start, if_neg (by simp [free])]
  case suppressed => rw [Ppu.stepDot_vblank line start, if_pos suppressed]
  case clears => exact Ppu.stepDot_clear line start
  case elsewhere =>
    rw [Ppu.stepDot_elsewhere lines dots elsewhere, p.moveDot_frame]
    exact ⟨rfl, rfl⟩

/-! ## The frame -/

/-- The position of the frame's last dot, one earlier when the frame is odd and rendering is enabled (R317, R323). -/
def Ppu.lastPosition (p : Ppu) : Nat := if p.oddFrame && p.rendering then 89340 else 89341

theorem Ppu.lastPosition_congr {p q : Ppu} (mask : q.mask = p.mask) (oddFrame : q.oddFrame = p.oddFrame) :
    q.lastPosition = p.lastPosition := by
  rw [Ppu.lastPosition, Ppu.rendering, mask, oddFrame]
  rfl

/-- Until the frame's last dot each dot moves the position by one. -/
theorem Ppu.stepDot_within {p : Ppu} (lines : p.scanline ≤ 261) (dots : p.dot ≤ 340) (within : p.position < p.lastPosition) :
    p.stepDot.position = p.position + 1 ∧ p.stepDot.oddFrame = p.oddFrame := by
  obtain ⟨scanline, dot, oddFrame⟩ := p.moveDot.positionEvents_counters
  rw [Ppu.position, Ppu.stepDot, scanline, dot, oddFrame]
  unfold Ppu.position Ppu.lastPosition at *
  rcases Ppu.moveDot_cases lines dots with ⟨skips, move⟩ | ⟨-, -, move⟩ | ⟨lineEnd, -, move⟩ | ⟨lineEnd, last, -⟩
  · obtain ⟨last, dot339, odd, shown⟩ := p.skipsDot_iff.1 skips
    rw [if_pos (by simpa [odd, Ppu.rendering] using shown)] at within
    omega
  · rw [move]
    exact ⟨rfl, rfl⟩
  · rw [move]
    refine ⟨?_, rfl⟩
    dsimp only
    omega
  · split at within <;> omega

/-- The dot after the frame's last is (0, 0) of the next frame. -/
theorem Ppu.stepDot_last {p : Ppu} (lines : p.scanline ≤ 261) (dots : p.dot ≤ 340) (last : p.position = p.lastPosition) :
    p.stepDot.scanline = 0 ∧ p.stepDot.dot = 0 ∧ p.stepDot.oddFrame = !p.oddFrame := by
  obtain ⟨scanline, dot, oddFrame⟩ := p.moveDot.positionEvents_counters
  rw [Ppu.stepDot, scanline, dot, oddFrame]
  unfold Ppu.position Ppu.lastPosition at last
  rcases Ppu.moveDot_cases lines dots with ⟨-, move⟩ | ⟨goesOn, inLine, -⟩ | ⟨lineEnd, within, -⟩ | ⟨-, -, move⟩
  · rw [move]
    exact ⟨rfl, rfl, rfl⟩
  · split at last
    · next short =>
      have skips : p.skipsDot = true := by
        simpa [Ppu.skipsDot, show p.scanline = 261 by omega, show p.dot = 339 by omega] using short
      rw [skips] at goesOn
      cases goesOn
    · omega
  · split at last <;> omega
  · rw [move]
    exact ⟨rfl, rfl, rfl⟩

/-- A run of dots inside the frame moves the position by as many. -/
theorem Ppu.runDots_within (k : Nat) {p : Ppu} (edge : Bool) (lines : p.scanline ≤ 261) (dots : p.dot ≤ 340)
    (within : p.position + k ≤ p.lastPosition) :
    (Ppu.runDots k p edge).1.position = p.position + k ∧ (Ppu.runDots k p edge).1.oddFrame = p.oddFrame := by
  induction k generalizing p edge with
  | zero => exact ⟨rfl, rfl⟩
  | succ k ih =>
    obtain ⟨position, oddFrame⟩ := Ppu.stepDot_within lines dots (by omega)
    obtain ⟨lines', dots'⟩ := Ppu.stepDot_range lines dots
    have lastPosition := Ppu.lastPosition_congr p.stepDot_ticked.mask oddFrame
    have rest := ih (p := p.stepDot.evalNmi.1) (edge || p.stepDot.evalNmi.2) lines' dots'
      (show p.stepDot.position + k ≤ p.stepDot.lastPosition by omega)
    exact ⟨rest.1.trans (show p.stepDot.position + k = _ by omega), rest.2.trans oddFrame⟩

/-- Settles O38: up to the frame's last position dot by dot, then the one dot that wraps. -/
theorem frameLength : Obligations.FrameLength := by
  unfold Obligations.FrameLength
  intro p line start rendering n q
  have start_position : p.position = 0 := by rw [Ppu.position, line, start]
  have length : n = p.lastPosition + 1 := by
    change (if p.oddFrame && p.rendering then 89341 else 89342) = _
    rw [Ppu.lastPosition]
    split <;> rfl
  have run : q = (Ppu.runDots p.lastPosition p false).1.stepDot.evalNmi.1 := by
    change (Ppu.runDots n p false).1 = _
    rw [length, Ppu.runDots_add]
    rfl
  obtain ⟨position, oddFrame⟩ := Ppu.runDots_within p.lastPosition (p := p) false (by omega) (by omega) (by omega)
  obtain ⟨lines, dots⟩ := Ppu.runDots_range p.lastPosition (p := p) false (by omega) (by omega)
  have mask := (Ppu.runDots_ticked p.lastPosition p false).mask
  rw [run, ← oddFrame]
  refine Ppu.stepDot_last lines dots ?_
  rw [Ppu.lastPosition_congr mask oddFrame, position, start_position, Nat.zero_add]

end Sys2Proof.Machine
end

section
/-! PROOF. The NMI edge (60_exceptions.md section 6, R318, R324). After every EvalNMI the remembered level is the level, and a
run of dots that passes neither (241, 1) nor (261, 1) keeps the level and reports no edge. -/

namespace Sys2Proof.Machine

/-! ## What a tick leaves -/

theorem Ppu.evalNmi_edge (p : Ppu) : p.evalNmi.2 = (p.nmiLevel && !p.nmiPrev) := rfl

theorem Ppu.runDots_succ (k : Nat) (p : Ppu) (edge : Bool) : Ppu.runDots (k + 1) p edge =
    Ppu.runDots k p.stepDot.evalNmi.1 (edge || p.stepDot.evalNmi.2) := rfl

theorem Ppu.Ticked.eq {p q : Ppu} (h : Ppu.Ticked p q) : q = { p with
    status := q.status
    spriteStatus := q.spriteStatus
    scanline := q.scanline
    dot := q.dot
    nmiPrev := q.nmiPrev
    suppress := q.suppress
    oddFrame := q.oddFrame } := by
  obtain ⟨ctrl, mask, oam, oam2, oamAddr, vram, readBuf, w, v, t, fineX, raceWindow, memStores⟩ := h
  cases p
  cases q
  simp_all

theorem Ppu.runDots_spriteStatus (k : Nat) (p : Ppu) (edge : Bool) :
    (Ppu.runDots k p edge).1.spriteStatus = p.spriteStatus := by
  induction k generalizing p edge with
  | zero => rfl
  | succ k ih => exact (ih _ _).trans (show p.stepDot.spriteStatus = _ by rw [p.stepDot_frame])

theorem Ppu.takeSpriteStatus_frame (p : Ppu) : p.takeSpriteStatus =
    { p with status := p.takeSpriteStatus.status, spriteStatus := p.spriteStatus.tail } := by
  unfold Ppu.takeSpriteStatus
  split
  · next empty => rw [empty, List.tail_nil, ← empty]
  · next entry => rw [entry, List.tail_cons]

/-- The renderer's entry leaves vblank (R74). -/
theorem Ppu.takeSpriteStatus_vblank (p : Ppu) : p.takeSpriteStatus.status.getLsbD 7 = p.status.getLsbD 7 := by
  unfold Ppu.takeSpriteStatus
  split
  · rfl
  · simp only [BitVec.getLsbD_append, BitVec.getLsbD_extractLsb']
    simp

theorem Ppu.tick_spriteStatus (p : Ppu) (n : Nat) : (p.tick n).1.spriteStatus = p.spriteStatus.tail :=
  (Ppu.runDots_spriteStatus _ _ _).trans (show p.takeSpriteStatus.spriteStatus = _ by rw [p.takeSpriteStatus_frame])

/-- Where a tick's dots start: the renderer's entry taken, the level remembered (R74, R318). -/
def Ppu.tickStart (p : Ppu) : Ppu := { p.takeSpriteStatus with nmiPrev := p.nmiLevel }

theorem Ppu.tickStart_frame (p : Ppu) : p.tickStart =
    { p with status := p.takeSpriteStatus.status, spriteStatus := p.spriteStatus.tail, nmiPrev := p.nmiLevel } := by
  rw [Ppu.tickStart, p.takeSpriteStatus_frame]

theorem Ppu.tickStart_vblank (p : Ppu) : p.tickStart.status.getLsbD 7 = p.status.getLsbD 7 := p.takeSpriteStatus_vblank

/-- A tick is its dots from `tickStart`; the edge of its first EvalNMI is that of the level the last tick left behind. -/
theorem Ppu.tick_eq (p : Ppu) (n : Nat) :
    p.tick n = Ppu.runDots (3 * n) p.tickStart (p.nmiLevel && !p.nmiPrev) := by
  have level : p.takeSpriteStatus.nmiLevel = p.nmiLevel := by
    rw [Ppu.nmiLevel, p.takeSpriteStatus_ticked.ctrl, p.takeSpriteStatus_vblank]
    rfl
  have previous : p.takeSpriteStatus.nmiPrev = p.nmiPrev := by rw [p.takeSpriteStatus_frame]
  rw [Ppu.tick, Ppu.evalNmi, level, previous]
  rfl

/-! ## Edges -/

/-- The remembered level is the level, as every EvalNMI leaves it. -/
def Ppu.Settled (p : Ppu) : Prop := p.nmiPrev = p.nmiLevel

theorem Ppu.runDots_settled (k : Nat) {p : Ppu} (edge : Bool) (h : p.Settled) : (Ppu.runDots k p edge).1.Settled := by
  induction k generalizing p edge with
  | zero => exact h
  | succ k ih => exact ih (p := p.stepDot.evalNmi.1) _ rfl

theorem Ppu.tickStart_settled (p : Ppu) : p.tickStart.Settled := by
  have level : p.tickStart.nmiLevel = p.nmiLevel := by
    rw [Ppu.nmiLevel, p.tickStart_vblank, p.tickStart_frame]
    rfl
  rw [Ppu.Settled, level]
  rfl

/-- An edge once found is reported at the end of the run (R318). -/
theorem Ppu.runDots_edge (k : Nat) (p : Ppu) : (Ppu.runDots k p true).2 = true := by
  induction k generalizing p with
  | zero => rfl
  | succ k ih => exact ih _

/-- With nmi_enable clear no dot finds an edge. -/
theorem Ppu.runDots_disabled (k : Nat) {p : Ppu} (h : p.ctrl.getLsbD 7 = false) : (Ppu.runDots k p false).2 = false := by
  induction k generalizing p with
  | zero => rfl
  | succ k ih =>
    have disabled : p.stepDot.ctrl.getLsbD 7 = false := p.stepDot_ticked.ctrl ▸ h
    have noEdge : p.stepDot.evalNmi.2 = false := by
      rw [Ppu.evalNmi_edge, Ppu.nmiLevel, disabled, Bool.false_and, Bool.false_and]
    rw [Ppu.runDots_succ, noEdge]
    exact ih disabled

/-! ## Quiet runs -/

/-- The next `k` dots pass neither (241, 1) nor (261, 1) nor the end of the frame. -/
def Ppu.Quiet (p : Ppu) (k : Nat) : Prop :=
  p.position + k < 82182 ∨ 82182 ≤ p.position ∧ p.position + k < 89002

/-- What a quiet run does: it moves the position. -/
structure Ppu.QuietRun (p : Ppu) (k : Nat) (edge : Bool) (r : Ppu × Bool) : Prop where
  position : r.1.position = p.position + k
  status : r.1.status = p.status
  suppress : r.1.suppress = p.suppress
  edge : r.2 = edge

theorem Ppu.runDots_quiet (k : Nat) {p : Ppu} (edge : Bool) (lines : p.scanline ≤ 261) (dots : p.dot ≤ 340)
    (settled : p.Settled) (quiet : p.Quiet k) : p.QuietRun k edge (Ppu.runDots k p edge) := by
  induction k generalizing p edge with
  | zero => exact ⟨rfl, rfl, rfl, rfl⟩
  | succ k ih =>
    unfold Ppu.Quiet at quiet
    have elsewhere : ¬ (p.dot = 0 ∧ (p.scanline = 241 ∨ p.scanline = 261)) := by
      unfold Ppu.position at quiet
      omega
    obtain ⟨-, -, -, keeps⟩ := vblankFlagEvents p lines dots
    obtain ⟨status, suppress⟩ := keeps elsewhere
    have inFrame : p.position < p.lastPosition := by
      unfold Ppu.lastPosition
      split <;> omega
    obtain ⟨position, -⟩ := Ppu.stepDot_within lines dots inFrame
    obtain ⟨lines', dots'⟩ := Ppu.stepDot_range lines dots
    have level : p.stepDot.nmiLevel = p.nmiLevel := by rw [Ppu.nmiLevel, p.stepDot_ticked.ctrl, status]; rfl
    have noEdge : p.stepDot.evalNmi.2 = false := by
      rw [Ppu.evalNmi_edge, level, p.stepDot_nmiPrev, show p.nmiPrev = p.nmiLevel from settled, Bool.and_not_self]
    have rest := ih (p := p.stepDot.evalNmi.1) edge lines' dots' rfl
      (show p.stepDot.position + k < 82182 ∨ 82182 ≤ p.stepDot.position ∧ p.stepDot.position + k < 89002 by omega)
    have run : Ppu.runDots (k + 1) p edge = Ppu.runDots k p.stepDot.evalNmi.1 edge := by
      rw [Ppu.runDots_succ, noEdge, Bool.or_false]
    rw [run]
    exact ⟨rest.position.trans (show p.stepDot.position + k = _ by omega), rest.status.trans status,
      rest.suppress.trans suppress, rest.edge⟩

/-! ## The tick that passes (241, 1) -/

/-- The dot that arrives at (241, 1) with vblank clear sets it, and finds an edge if nmi_enable is set, unless suppressed; it
clears suppress (R321, R324). -/
theorem Ppu.stepDot_arrives {p : Ppu} (line : p.scanline = 241) (start : p.dot = 0) (settled : p.Settled)
    (clear : p.status.getLsbD 7 = false) :
    p.stepDot.position = 82182 ∧ p.stepDot.suppress = false ∧ p.stepDot.status.getLsbD 7 = !p.suppress ∧
      p.stepDot.evalNmi.2 = (p.ctrl.getLsbD 7 && !p.suppress) := by
  have previous : p.nmiPrev = false := by
    rw [show p.nmiPrev = p.nmiLevel from settled, Ppu.nmiLevel, clear, Bool.and_false]
  have event := Ppu.stepDot_vblank line start
  cases suppress : p.suppress with
  | true =>
    rw [if_pos suppress] at event
    simp [event, Ppu.position, Ppu.evalNmi_edge, Ppu.nmiLevel, line, clear, previous, -BitVec.getLsbD_eq_getElem]
  | false =>
    rw [if_neg (by simp [suppress])] at event
    simp [event, Ppu.position, Ppu.evalNmi_edge, Ppu.nmiLevel, line, suppress, previous]

/-- The dots from (241, 0) on: the one that arrives at (241, 1), then a quiet run inside vblank. -/
theorem Ppu.runDots_passes_vblank {p : Ppu} {r : Nat} (lines : p.scanline ≤ 261) (dots : p.dot ≤ 340)
    (door : p.position = 82181) (settled : p.Settled) (clear : p.status.getLsbD 7 = false) (inBlank : 82182 + r < 89002) :
    (Ppu.runDots (r + 1) p false).1.position = 82182 + r ∧ (Ppu.runDots (r + 1) p false).1.suppress = false ∧
      (Ppu.runDots (r + 1) p false).2 = (p.ctrl.getLsbD 7 && !p.suppress) ∧
      (Ppu.runDots (r + 1) p false).1.status.getLsbD 7 = !p.suppress := by
  unfold Ppu.position at door
  obtain ⟨position, suppress, vblank, edge⟩ := Ppu.stepDot_arrives (p := p) (by omega) (by omega) settled clear
  obtain ⟨lines', dots'⟩ := Ppu.stepDot_range lines dots
  have rest := Ppu.runDots_quiet r (p := p.stepDot.evalNmi.1) p.stepDot.evalNmi.2 lines' dots' rfl
    (.inr (show 82182 ≤ p.stepDot.position ∧ p.stepDot.position + r < 89002 by omega))
  rw [Ppu.runDots_succ, Bool.false_or]
  refine ⟨rest.position.trans (congrArg (· + r) position), rest.suppress.trans suppress, rest.edge.trans edge, ?_⟩
  rw [rest.status]
  exact vblank

/-- The tick that passes (241, 1) starts with a quiet run to (241, 0). -/
theorem Ppu.tick_passes_vblank {p : Ppu} {n : Nat} (lines : p.scanline ≤ 261) (dots : p.dot ≤ 340)
    (clear : p.status.getLsbD 7 = false) (before : p.position < 82182) (reached : 82182 ≤ p.position + 3 * n)
    (inBlank : p.position + 3 * n < 89002) :
    (p.tick n).1.position = p.position + 3 * n ∧ (p.tick n).1.suppress = false ∧
      (p.tick n).2 = (p.ctrl.getLsbD 7 && !p.suppress) ∧ (p.tick n).1.status.getLsbD 7 = !p.suppress := by
  obtain ⟨k, door⟩ : ∃ k, p.position + k = 82181 := ⟨82181 - p.position, by omega⟩
  obtain ⟨r, split⟩ : ∃ r, 3 * n = k + (r + 1) := ⟨3 * n - k - 1, by omega⟩
  have start := p.tickStart_frame
  have startPosition : p.tickStart.position = p.position := by rw [start]; rfl
  have startSuppress : p.tickStart.suppress = p.suppress := by rw [start]
  have startCtrl : p.tickStart.ctrl = p.ctrl := by rw [start]
  have startLines : p.tickStart.scanline ≤ 261 := by rw [start]; exact lines
  have startDots : p.tickStart.dot ≤ 340 := by rw [start]; exact dots
  have toDoor := Ppu.runDots_quiet k false startLines startDots p.tickStart_settled (.inl (by omega))
  have doorSettled := Ppu.runDots_settled k false p.tickStart_settled
  have doorCtrl := (Ppu.runDots_ticked k p.tickStart false).ctrl.trans startCtrl
  have doorClear : (Ppu.runDots k p.tickStart false).1.status.getLsbD 7 = false := by
    rw [toDoor.status, p.tickStart_vblank, clear]
  obtain ⟨doorLines, doorDots⟩ := Ppu.runDots_range k false startLines startDots
  have run : p.tick n = Ppu.runDots (r + 1) (Ppu.runDots k p.tickStart false).1 false := by
    rw [p.tick_eq, Ppu.nmiLevel, clear, Bool.and_false, Bool.false_and, split, Ppu.runDots_add, toDoor.edge]
  obtain ⟨position, suppress, edge, vblank⟩ := Ppu.runDots_passes_vblank (r := r) doorLines doorDots
    (toDoor.position.trans (by omega)) doorSettled doorClear (by omega)
  rw [toDoor.suppress, startSuppress] at edge vblank
  rw [doorCtrl] at edge
  rw [run]
  exact ⟨position.trans (by omega), suppress, edge, vblank⟩

/-- Settles O39: suppress decides, and nmi_enable then decides the edge. -/
theorem nmiEdgeAtVblank : Obligations.NmiEdgeAtVblank := by
  unfold Obligations.NmiEdgeAtVblank
  intro p n lines dots clear before reached inBlank
  obtain ⟨position, suppress, edge, vblank⟩ := Ppu.tick_passes_vblank lines dots clear before reached inBlank
  refine ⟨position, suppress, fun free => ⟨?_, ?_⟩, fun suppressed => ⟨?_, ?_⟩⟩
  · rw [edge, free, Bool.not_false, Bool.and_true]
  · rw [vblank, free, Bool.not_false]
  · rw [edge, suppressed, Bool.not_true, Bool.and_false]
  · rw [vblank, suppressed, Bool.not_true]

/-! ## The edge is reported once -/

/-- While vblank lasts a tick whose level was seen reports nothing and vblank stays. -/
theorem Ppu.tick_seen {p : Ppu} {n : Nat} (lines : p.scanline ≤ 261) (dots : p.dot ≤ 340)
    (vblank : p.status.getLsbD 7 = true) (seen : p.nmiPrev = true) (inBlank : 82182 ≤ p.position)
    (stays : p.position + 3 * n < 89002) : (p.tick n).2 = false ∧ (p.tick n).1.status.getLsbD 7 = true := by
  have start := p.tickStart_frame
  have startPosition : p.tickStart.position = p.position := by rw [start]; rfl
  have run := Ppu.runDots_quiet (3 * n) (p := p.tickStart) false (by rw [start]; exact lines) (by rw [start]; exact dots)
    p.tickStart_settled (.inr (by omega))
  rw [p.tick_eq, seen, Bool.not_true, Bool.and_false, run.status, p.tickStart_vblank]
  exact ⟨run.edge, vblank⟩

/-- A level raised since the last tick is an edge of the next one's first EvalNMI. -/
theorem Ppu.tick_raised {p : Ppu} (n : Nat) (level : p.nmiLevel = true) (unseen : p.nmiPrev = false) :
    (p.tick n).2 = true := by
  rw [p.tick_eq, level, unseen]
  exact Ppu.runDots_edge _ _

theorem Ppu.tick_disabled {p : Ppu} (n : Nat) (disabled : p.ctrl.getLsbD 7 = false) : (p.tick n).2 = false := by
  rw [p.tick_eq, Ppu.nmiLevel, disabled, Bool.false_and, Bool.false_and]
  exact Ppu.runDots_disabled _ (by rw [p.tickStart_frame]; exact disabled)

theorem Ppu.tick_settled (p : Ppu) (n : Nat) : (p.tick n).1.Settled := by
  rw [p.tick_eq]
  exact Ppu.runDots_settled _ _ p.tickStart_settled

/-- The renderer's two bits between vblank and the low five (R74). -/
theorem spriteBits_eq (status : Byte) (b : BitVec 2) :
    (status.extractLsb' 7 1 ++ b ++ status.extractLsb' 0 5 : Byte) = ((status &&& 0x9F) ||| (b.setWidth 8 <<< 5) : Byte) := by
  apply BitVec.eq_of_getLsbD_eq
  intro i bound
  simp only [BitVec.getLsbD_append, BitVec.getLsbD_extractLsb']
  interval_cases i <;> simp

theorem Ppu.takeSpriteStatus_entry {p : Ppu} {b : BitVec 2} {rest : List (BitVec 2)} (entry : p.spriteStatus = b :: rest) :
    p.takeSpriteStatus =
      { p with status := (p.status &&& 0x9F) ||| (b.setWidth 8 <<< 5), spriteStatus := rest } := by
  rw [← spriteBits_eq, Ppu.takeSpriteStatus, entry]

theorem Ppu.takeSpriteStatus_empty {p : Ppu} (empty : p.spriteStatus = []) : p.takeSpriteStatus = p := by
  rw [Ppu.takeSpriteStatus, empty]

/-- One more cycle of a tick is three more dots (R318). -/
theorem Ppu.tick_succ (p : Ppu) (n : Nat) : p.tick (n + 1) = Ppu.runDots 3 (p.tick n).1 (p.tick n).2 :=
  Ppu.runDots_add (3 * n) 3 _ _

/-- Settles O40: the edges by what the last tick left behind, and the tick by its parts. -/
theorem nmiEdgeFiresOnce : Obligations.NmiEdgeFiresOnce := by
  unfold Obligations.NmiEdgeFiresOnce
  intro p n
  refine ⟨fun lines dots _ vblank seen inBlank stays => Ppu.tick_seen lines dots vblank seen inBlank stays,
    fun enabled vblank unseen => Ppu.tick_raised n (by rw [Ppu.nmiLevel, enabled, vblank, Bool.and_true]) unseen,
    Ppu.tick_disabled n, p.tick_settled n, ?_⟩
  intro eval dot
  refine ⟨fun empty => ?empty, fun b rest entry => ?entry, p.tick_succ n, ?frame, p.stepDot_frame⟩
  case empty =>
    change p.takeSpriteStatus.evalNmi = _
    rw [Ppu.takeSpriteStatus_empty empty]
    rfl
  case entry =>
    change p.takeSpriteStatus.evalNmi = _
    rw [Ppu.takeSpriteStatus_entry entry]
    rfl
  case frame =>
    rw [← p.tick_spriteStatus n]
    exact (p.tick_ticked n).eq

end Sys2Proof.Machine
end

section
/-! PROOF. The addressing modes (40_dispatch_and_addressing.md R140 to R146) as sums of numbers, and when their operands can be
read (R50, R62, R65). -/

namespace Sys2Proof.Machine

/-! ## Addresses as numbers -/

theorem zext16_eq_ofNat (b : Byte) : zext16 b = BitVec.ofNat 16 b.toNat :=
  (BitVec.ofNat_toNat 16 b).symm

theorem zext16_add_eq_ofNat (b index : Byte) : zext16 (b + index) = BitVec.ofNat 16 ((b.toNat + index.toNat) % 256) := by
  rw [zext16_eq_ofNat, BitVec.toNat_add]

theorem wordOf_eq_ofNat (hi lo : Byte) : wordOf hi lo = BitVec.ofNat 16 (256 * hi.toNat + lo.toNat) := by
  rw [← wordOf_toNat, BitVec.ofNat_toNat, BitVec.setWidth_eq]

/-- An indexed address is the sum modulo 65536, crossed when its page is another (R145, R146). -/
theorem indexed_eq (base : Word) (index : Byte) : indexed base index =
    ⟨BitVec.ofNat 16 (base.toNat + index.toNat),
      decide (base.toNat / 256 ≠ (base.toNat + index.toNat) % 65536 / 256)⟩ := by
  have sum : base + zext16 index = BitVec.ofNat 16 (base.toNat + index.toNat) := by
    rw [zext16_eq_ofNat]
    bv_omega
  have samePage := hiByte_eq_iff base (base + zext16 index)
  rw [BitVec.toNat_add, zext16_toNat] at samePage
  rw [indexed, ← sum, bne, beq_eq_decide, ← decide_not]
  exact congrArg (Target.mk _) (decide_eq_decide.2 (not_congr samePage))

/-- The word at a zero-page pointer given by a number: both its bytes lie in page 0 (R144, R145). -/
theorem State.readPointer_ofNat (s : State) {p : Byte} {n : Nat} (h : p.toNat = n % 256) :
    s.readPointer p = .ok (BitVec.ofNat 16 (256 * (s.ram.read ((n + 1) % 256)).toNat + (s.ram.read (n % 256)).toNat), s) := by
  have next : (p + 1).toNat = (n + 1) % 256 := by
    rw [BitVec.toNat_add, h]
    exact (Nat.add_mod n 1 256).symm
  rw [s.readPointer_eq, wordOf_eq_ofNat, next, h]

/-- Settles O42: each mode's sum; an operand is one read at it. -/
theorem addressingModes : Obligations.AddressingModes := by
  unfold Obligations.AddressingModes
  intro s b w at16 pointer crosses
  refine ⟨?zp, ?zpX, ?zpY, rfl, ?absX, ?absY, ?indX, ?indY, ?operand⟩
  case zp => rw [State.resolve, zext16_eq_ofNat]; rfl
  case zpX => rw [State.resolve, zext16_add_eq_ofNat]; rfl
  case zpY => rw [State.resolve, zext16_add_eq_ofNat]; rfl
  case absX => rw [State.resolve, indexed_eq]
  case absY => rw [State.resolve, indexed_eq]
  case indX =>
    simp only [State.resolve, s.readPointer_ofNat (BitVec.toNat_add b s.x), bind, Except.bind]
    rfl
  case indY =>
    have inPage : b.toNat = b.toNat % 256 := (Nat.mod_eq_of_lt b.isLt).symm
    have inWord : pointer b.toNat < 65536 := by
      have hi := (s.ram.read ((b.toNat + 1) % 256)).isLt
      have lo := (s.ram.read (b.toNat % 256)).isLt
      dsimp only [pointer]
      omega
    have pointer_toNat : (BitVec.ofNat 16 (pointer b.toNat)).toNat = pointer b.toNat :=
      (BitVec.toNat_ofNat _ _).trans (Nat.mod_eq_of_lt inWord)
    have base : s.readPointer b = .ok (at16 (pointer b.toNat), s) := s.readPointer_ofNat inPage
    simp only [State.resolve, base, bind, Except.bind]
    change Except.ok (indexed (BitVec.ofNat 16 (pointer b.toNat)) s.y, s) = _
    rw [indexed_eq, pointer_toNat]
  case operand =>
    intro mode t s1 m s2 resolved read
    obtain rfl := State.resolve_state resolved
    exact State.loadOperand_iff.2 ⟨t, resolved, read, rfl⟩

/-- With CHR no bus read faults (R62). -/
theorem State.busRead_ok_of_chr (s : State) (chr : 0 < s.cart.chrUnits) (addr : Word) :
    ∃ m s1, s.busRead addr = .ok (m, s1) := by
  rcases s.busRead_cases addr with read | ⟨_, -, raises, -⟩
  · exact read
  · exact absurd raises.noChr (by omega)

/-- Settles O60: resolving reads RAM, and the operand is one bus read. -/
theorem operandsReadable : Obligations.OperandsReadable := by
  unfold Obligations.OperandsReadable
  refine fun s mode => ⟨s.resolve_ok mode, fun chr => ?operand, s.busRead_ok_of_chr, fun m crossed s1 operand => ?frame⟩
  case operand =>
    obtain ⟨t, resolved⟩ := s.resolve_ok mode
    obtain ⟨m, s1, read⟩ := s.busRead_ok_of_chr chr t.ea
    exact ⟨m, t.crossed, s1, State.loadOperand_iff.2 ⟨t, resolved, read, rfl⟩⟩
  case frame =>
    obtain ⟨t, -, read, -⟩ := State.loadOperand_iff.1 operand
    exact (State.busRead_reads read).eq

end Sys2Proof.Machine
end

section
/-! PROOF. The results of ADC and SBC (41_arith_logic_compare.md R160 to R162). The sum in the widened intermediate is the sum
of the numbers; SBC adds the one's complement, 255 less the operand. -/

namespace Sys2Proof.Machine

theorem addWide_toNat (a m : Byte) (c : Bool) : (addWide a m c).toNat = a.toNat + m.toNat + flagNat c := by
  have := a.isLt
  have := m.isLt
  have carry : (bit 16 c).toNat = flagNat c := by cases c <;> rfl
  have : flagNat c ≤ 1 := by cases c <;> decide
  rw [addWide, BitVec.toNat_add, BitVec.toNat_add, zext16_toNat, zext16_toNat, carry]
  omega

theorem addResult_eq (a m : Byte) (c : Bool) : addResult a m c = BitVec.ofNat 8 (a.toNat + m.toNat + flagNat c) := by
  apply BitVec.eq_of_toNat_eq
  rw [addResult, loByte_toNat, addWide_toNat, BitVec.toNat_ofNat]

/-- Bit 8 of the wide sum is the carry out of 8 bits (R161). -/
theorem addWide_carry (a m : Byte) (c : Bool) :
    (addWide a m c).getLsbD 8 = decide (256 ≤ a.toNat + m.toNat + flagNat c) := by
  have := a.isLt
  have := m.isLt
  have : flagNat c ≤ 1 := by cases c <;> decide
  rw [BitVec.getLsbD, addWide_toNat, Nat.testBit_eq_decide_div_mod_eq]
  exact decide_eq_decide.2 (by omega)

/-- Bit 7 of the overflow mask is a comparison of signs (R161). -/
theorem overflowBit (a m r : Byte) : ((~~~(a ^^^ m)) &&& (a ^^^ r)).getLsbD 7 =
    decide (a.msb = m.msb ∧ r.msb ≠ a.msb) := by
  rw [getLsbD_seven, BitVec.msb_and, BitVec.msb_not, BitVec.msb_xor, BitVec.msb_xor]
  cases a.msb <;> cases m.msb <;> cases r.msb <;> rfl

/-- The effect of an addition that gives `r`, with C and V as they come out (R161). -/
def afterSum (s : State) (r : Byte) (c v : Bool) : State :=
  { s with a := r, flags := { withNZ s.flags r with c := c, v := v } }

theorem adc_eq (m : Byte) (s : State) : adc m s =
    afterSum s (BitVec.ofNat 8 (s.a.toNat + m.toNat + flagNat s.flags.c))
      (decide (256 ≤ s.a.toNat + m.toNat + flagNat s.flags.c))
      (decide (s.a.msb = m.msb ∧
        (BitVec.ofNat 8 (s.a.toNat + m.toNat + flagNat s.flags.c)).msb ≠ s.a.msb)) := by
  rw [adc, Flags.add, Flags.setNZ_eq, addWide_carry, overflowBit, addResult_eq]
  rfl

/-- Settles O43: one effect for the eight rows, the sum of the numbers. -/
theorem adcResult : Obligations.AdcResult := by
  unfold Obligations.AdcResult
  exact .ofArms (f := adc) (fun _ _ => rfl) (fun _ _ _ => rfl) adc_eq

theorem onesComplement_eq (m : Byte) : onesComplement m = ~~~m := by
  rw [onesComplement, BitVec.not_def]
  exact BitVec.xor_comm _ _

/-- Adding the one's complement and the carry subtracts the operand and the borrow (R162). -/
theorem complementSum_eq (a m : Byte) (c : Bool) : BitVec.ofNat 8 (a.toNat + (~~~m).toNat + flagNat c) =
    a - m - (if c then 0 else 1) := by
  rw [BitVec.toNat_not]
  cases c
  · simp only [flagNat, Bool.false_eq_true, if_false]
    bv_omega
  · simp only [flagNat, if_true]
    bv_omega

theorem complementSum_carry (a m : Byte) (c : Bool) :
    256 ≤ a.toNat + (~~~m).toNat + flagNat c ↔ m.toNat + 1 ≤ a.toNat + flagNat c := by
  have := m.isLt
  rw [BitVec.toNat_not]
  omega

theorem sbc_eq (m : Byte) (s : State) : sbc m s =
    afterSum s (s.a - m - (if s.flags.c then 0 else 1)) (decide (m.toNat + 1 ≤ s.a.toNat + flagNat s.flags.c))
      (decide (s.a.msb ≠ m.msb ∧ (s.a - m - (if s.flags.c then 0 else 1)).msb ≠ s.a.msb)) := by
  have signs : s.a.msb = (~~~m).msb ↔ s.a.msb ≠ m.msb := by
    rw [BitVec.msb_not]
    cases s.a.msb <;> cases m.msb <;> decide
  rw [sbc, onesComplement_eq, adc_eq, complementSum_eq]
  simp only [complementSum_carry, signs]

/-- Settles O44: SBC is ADC of the complement, whose sum is the difference. -/
theorem sbcResult : Obligations.SbcResult := by
  unfold Obligations.SbcResult
  exact .ofArms (f := sbc) (fun _ _ => rfl) (fun _ _ _ => rfl) sbc_eq

end Sys2Proof.Machine
end

section
/-! PROOF. The results of the stores, the transfers, the flag instructions, NOP and the unassigned bytes
(45_load_store_transfer_flag.md R233 to R249, 46_unassigned.md R270). -/

namespace Sys2Proof.Machine

theorem StoreRow.ofArm {i : Instr} {code : List Byte} {mode : MemMode} {base : Nat} {reg : State → Byte}
    (bytes : encode i = code) (arm : ∀ s, exec i s = storeOp mode base reg s) : StoreRow i code mode base reg := by
  refine ⟨bytes, fun s t s1 resolved => ?_⟩
  obtain ⟨t', resolved', result⟩ := storeOp_eq mode base reg s
  rw [resolved] at resolved'
  cases resolved'
  rw [arm, result]

/-- Settles O57: every row is the write class on its mode and register. -/
theorem storeResult : Obligations.StoreResult := by
  unfold Obligations.StoreResult
  refine ⟨?_, ?_, ?_, ?_, ?_, ?_, ?_, ?_, ?_, ?_, ?_, ?_, ?_⟩
  all_goals exact fun _ => .ofArm rfl fun _ => rfl

/-- Settles O58: TXS, the flag instructions and NOP as they stand, the five others by the register's write with N and Z. -/
theorem transferFlagNopResult : Obligations.TransferFlagNopResult := by
  unfold Obligations.TransferFlagNopResult
  refine ⟨⟨rfl, fun s => ?tax⟩, ⟨rfl, fun s => ?tay⟩, ⟨rfl, fun s => ?txa⟩, ⟨rfl, fun s => ?tya⟩, ⟨rfl, fun s => ?tsx⟩,
    ?txs, ?clc, ?sec, ?cli, ?sei, ?clv, ?cld, ?sed, ?nop⟩
  case tax | tsx =>
    rw [exec]
    exact congrArg (finish · 2) (setXNZ_eq _ s)
  case tay =>
    rw [exec]
    exact congrArg (finish · 2) (setYNZ_eq _ s)
  case txa | tya =>
    rw [exec]
    exact congrArg (finish · 2) (setANZ_eq _ s)
  case txs | clc | sec | cli | sei | clv | cld | sed | nop => exact ⟨rfl, fun _ => rfl⟩

/-- Settles O59: the log and one cycle, whatever the byte. -/
theorem unassignedResult : Obligations.UnassignedResult := by
  unfold Obligations.UnassignedResult
  exact fun op => ⟨rfl, fun s => rfl⟩

end Sys2Proof.Machine
end

section
/-! PROOF. The results of the stack, subroutine and interrupt instructions (44_stack_jump_interrupt.md R211 to R219), of NMI and
IRQ entry (R305, R306, R308), and the ways there and back (R219, R313). -/

namespace Sys2Proof.Machine

/-! ## The status byte -/

theorem Flags.pack_eq (f : Flags) (b : Bool) : f.pack b = statusByte f b := by
  obtain ⟨n, v, d, i, z, c⟩ := f
  revert n v d i z c b
  decide

/-- Pulling a pushed status gives the flags back, whatever B was (R17). -/
theorem Flags.unpack_statusByte (f : Flags) (b : Bool) : Flags.unpack (statusByte f b) = f := by
  obtain ⟨n, v, d, i, z, c⟩ := f
  revert n v d i z c b
  decide

/-! ## The results -/

/-- Settles O51: a push or a pull of one byte, by the equations of the stack. -/
theorem pushPullResult : Obligations.PushPullResult := by
  unfold Obligations.PushPullResult
  refine ⟨⟨rfl, fun s => ?pha⟩, ⟨rfl, fun s => ?php⟩, ⟨rfl, fun s => ?pla⟩, ⟨rfl, fun s => ?plp⟩⟩
  case pha =>
    rw [exec, execPha, State.push_eq]
    rfl
  case php =>
    rw [exec, execPhp, State.push_eq, Flags.pack_eq]
    rfl
  case pla =>
    obtain ⟨t, result, effect⟩ := exec_pla s
    cases effect
    rw [result, setANZ_eq]
    rfl
  case plp =>
    obtain ⟨t, result, effect⟩ := exec_plp s
    cases effect
    exact result

/-- Settles O52: a word pushed or pulled, by the equations of the stack. -/
theorem subroutineResult : Obligations.SubroutineResult := by
  unfold Obligations.SubroutineResult
  refine ⟨fun addr => ⟨rfl, fun s => ?jsr⟩, ⟨rfl, fun s => ?rts⟩⟩
  case jsr =>
    rw [exec, execJsr, callSubroutine, State.pushWord_eq]
    rfl
  case rts =>
    obtain ⟨t, result, effect⟩ := exec_rts s
    cases effect
    exact result

/-- Settles O54: BRK is the interrupt sequence with B set, RTI the return from it. -/
theorem breakAndReturnResult : Obligations.BreakAndReturnResult := by
  unfold Obligations.BreakAndReturnResult
  refine ⟨⟨rfl, fun s => ?brk⟩, ⟨rfl, fun s => ?rti⟩⟩
  case brk =>
    rw [exec, execBrk, State.enterInterrupt_eq s _ _ (by decide) (by decide), Flags.pack_eq]
    simp only [finishRead_ok, State.addCycles, State.setCyc, State.setPc, State.setFlags, State.setSp, State.setRam, hiByte,
      loByte, irqVector]
    rfl
  case rti =>
    obtain ⟨t, result, effect⟩ := exec_rti s
    cases effect
    exact result

/-- Settles O8: the interrupt sequence with B clear, by either vector. -/
theorem interruptEntryEffect : Obligations.InterruptEntryEffect := by
  unfold Obligations.InterruptEntryEffect
  intro s vector which
  have inPrg : 0x8000 ≤ vector.toNat ∧ 0x8000 ≤ (vector + 1).toNat := by
    rcases which with rfl | rfl <;> decide
  rw [interruptEntry_eq s inPrg.1 inPrg.2, Flags.pack_eq]
  simp only [State.addCycles, State.setCyc, State.setPc, State.setFlags, State.setSp, State.setRam, hiByte, loByte]

/-! ## There and back -/

/-- RAM after a word and a status byte are pushed from `sp` on (R305). -/
def Memory.pushedEntry (m : Memory) (sp : Byte) (ret : Word) (status : Byte) : Memory :=
  ((m.write (0x100 + sp.toNat) (hiByte ret)).write (0x100 + (sp - 1).toNat) (loByte ret)).write
    (0x100 + (sp - 2).toNat) status

/-- The slots of a pushed word are two. -/
theorem Memory.read_pushedWord (m : Memory) (sp hi lo : Byte) :
    let ram := (m.write (0x100 + sp.toNat) hi).write (0x100 + (sp - 1).toNat) lo
    ram.read (0x100 + sp.toNat) = hi ∧ ram.read (0x100 + (sp - 1).toNat) = lo := by
  refine ⟨?_, Memory.read_write_same _ _ _⟩
  rw [Memory.read_write_ne _ _ (by bv_omega), Memory.read_write_same]

/-- The slots of a pushed word and status are three. -/
theorem Memory.read_pushedEntry (m : Memory) (sp : Byte) (ret : Word) (status : Byte) :
    (m.pushedEntry sp ret status).read (0x100 + sp.toNat) = hiByte ret ∧
      (m.pushedEntry sp ret status).read (0x100 + (sp - 1).toNat) = loByte ret ∧
      (m.pushedEntry sp ret status).read (0x100 + (sp - 2).toNat) = status := by
  obtain ⟨hi, lo⟩ := m.read_pushedWord sp (hiByte ret) (loByte ret)
  refine ⟨?_, ?_, Memory.read_write_same _ _ _⟩
  · exact (Memory.read_write_ne _ _ (by bv_omega)).trans hi
  · exact (Memory.read_write_ne _ _ (by bv_omega)).trans lo

/-- RTI undoes an entry: it finds the status and the return address in the slots where they were pushed (R219, R313). -/
theorem rti_undoes_entry {s t u : State} {ret : Word} {b : Bool}
    (ram : t.ram = s.ram.pushedEntry s.sp ret (statusByte s.flags b)) (sp : t.sp = s.sp - 3)
    (back : exec .rti t = .next u) : u.flags = s.flags ∧ u.sp = s.sp ∧ u.pc = ret := by
  obtain ⟨hi, lo, status⟩ := s.ram.read_pushedEntry s.sp ret (statusByte s.flags b)
  have first : t.sp + 1 = s.sp - 2 := by rw [sp]; bv_omega
  have second : t.sp + 2 = s.sp - 1 := by rw [sp]; bv_omega
  have third : t.sp + 3 = s.sp := by rw [sp]; bv_omega
  obtain ⟨_, result, effect⟩ := exec_rti t
  cases effect
  rw [result] at back
  cases back
  simp only [State.addCycles_flags, State.addCycles_sp, State.addCycles_pc, State.setPc_flags, State.setPc_sp,
    State.setPc_pc, State.setFlags_flags, State.setFlags_sp, State.setSp_sp, first, second, third, ram, hi, lo, status]
  exact ⟨Flags.unpack_statusByte s.flags b, trivial, wordOf_hiByte_loByte ret⟩

/-- RTS goes one past the word that it finds in the slots where it was pushed (R216). -/
theorem rts_undoes_push {s t u : State} {w : Word}
    (ram : t.ram = (s.ram.write (0x100 + s.sp.toNat) (hiByte w)).write (0x100 + (s.sp - 1).toNat) (loByte w))
    (sp : t.sp = s.sp - 2) (back : exec .rts t = .next u) : u.sp = s.sp ∧ u.pc = w + 1 := by
  obtain ⟨hi, lo⟩ := s.ram.read_pushedWord s.sp (hiByte w) (loByte w)
  have first : t.sp + 1 = s.sp - 1 := by rw [sp]; bv_omega
  have second : t.sp + 2 = s.sp := by rw [sp]; bv_omega
  obtain ⟨_, result, effect⟩ := exec_rts t
  cases effect
  rw [result] at back
  cases back
  simp only [State.addCycles_sp, State.addCycles_pc, State.setPc_sp, State.setPc_pc, State.setSp_sp, first, second, ram,
    hi, lo, wordOf_hiByte_loByte, and_self]

/-- RTS undoes JSR, which pushed the address of its last byte (R215, R216). -/
theorem rts_undoes_jsr {s t u : State} {addr : Word} (call : exec (.jsr addr) s = .next t)
    (back : exec .rts t = .next u) : u.sp = s.sp ∧ u.pc = s.pc := by
  obtain ⟨jsr, -⟩ := subroutineResult
  rw [(jsr addr).2 s] at call
  cases call
  obtain ⟨sp, pc⟩ := rts_undoes_push (s := s) (w := s.pc - 1) rfl rfl back
  exact ⟨sp, pc.trans (BitVec.sub_add_cancel _ _)⟩

/-- Settles O55: each way there leaves RAM and SP as the way back expects them. -/
theorem callAndReturnRoundTrips : Obligations.CallAndReturnRoundTrips := by
  unfold Obligations.CallAndReturnRoundTrips
  refine fun s t u => ⟨fun there back => ?brk, fun vector which there back => ?entry, fun addr => rts_undoes_jsr⟩
  case brk =>
    rw [breakAndReturnResult.1.2 s] at there
    cases there
    exact rti_undoes_entry rfl rfl back
  case entry =>
    rw [interruptEntryEffect s vector which] at there
    cases there
    exact rti_undoes_entry rfl rfl back

end Sys2Proof.Machine
end

section
/-! PROOF. Reset and power-on (70_reset_and_hazards.md sections 1 and 2, R360 to R364). -/

namespace Sys2Proof.Machine

/-- Settles O11: the reset vector is PRG's, so that nothing but the named fields changes. -/
theorem systemResetEffect : Obligations.SystemResetEffect := by
  unfold Obligations.SystemResetEffect
  intro s
  simp only [systemReset, State.cpuReset, bind, Except.bind]
  rw [State.read16_vector _ (by decide) (by decide)]
  rfl

/-- Settles O12: power-on is the one reset of the machine it creates. -/
theorem powerOnEndsInReset : Obligations.PowerOnEndsInReset := by
  unfold Obligations.PowerOnEndsInReset
  have effect (d : PowerOn) (c : Cartridge) := systemResetEffect (d.create c)
  refine ⟨effect, fun d a x y sp flags ram ppu => ?_⟩
  rw [powerOn, effect]
  simp only [PowerOn.create, a, x, y, sp, flags, ram, ppu]
  rfl

/-- Settles O10: the byte stores are empty and the counters 0. -/
theorem resetMeetsInvariant : Obligations.ResetMeetsInvariant := by
  unfold Obligations.ResetMeetsInvariant
  decide

end Sys2Proof.Machine
end

section
/-! PROOF. What an instruction that completes leaves: cycles (R132, R376), SP (R14, R210), the flags (R18), memory (R51, R56,
R133), the console's state (R22 to R24, R26) and the PPU (R20, R52). `Executed` says once what each class of instruction has
done to the state; every frame is a split over it. -/

namespace Sys2Proof.Machine

/-! ## What an instruction has done -/

/-- The state an instruction leaves when it completes, by its class. -/
inductive Executed (i : Instr) (s : State) : State → Prop where
  | read (mode : MemMode) (target : Target) (m : Byte) (s1 : State) (cycles : Nat) (f : Byte → State → State)
    (effect : ReadEffect i.operation f) (reads : i.readMode = some mode) (resolved : s.resolve mode = .ok (target, s))
    (read : s.busRead target.ea = .ok (m, s1)) (low : 2 ≤ cycles) (high : cycles ≤ 7) :
    Executed i s ((f m s1).addCycles cycles)
  | immediate (imm : Byte) (f : Byte → State → State) (effect : ReadEffect i.operation f) :
    Executed i s ((f imm s).addCycles 2)
  | store (mode : MemMode) (target : Target) (b : Byte) (reg : State → Byte) (cycles : Nat)
    (source : StoreSource i.operation reg) (writes : i.writeMode = some mode)
    (resolved : s.resolve mode = .ok (target, s)) (low : 2 ≤ cycles) (high : cycles ≤ 7) :
    Executed i s ((s.busWrite target.ea b).addCycles cycles)
  | modify (mode : MemMode) (target : Target) (m : Byte) (s1 : State) (f : Byte → Flags → Byte × Flags) (cycles : Nat)
    (effect : RmwEffect i.operation f) (writes : i.writeMode = some mode)
    (resolved : s.resolve mode = .ok (target, s)) (read : s.busRead target.ea = .ok (m, s1)) (low : 2 ≤ cycles)
    (high : cycles ≤ 7) :
    Executed i s (((s1.busWrite target.ea (f m s.flags).1).setFlags (f m s.flags).2).addCycles cycles)
  | accumulator (f : Byte → Flags → Byte × Flags) (effect : RmwEffect i.operation f) :
    Executed i s (((s.setA (f s.a s.flags).1).setFlags (f s.a s.flags).2).addCycles 2)
  | branch (pc : Word) (cycles : Nat) (which : i.operation ∈ [.bpl, .bmi, .bvc, .bvs, .bcc, .bcs, .bne, .beq])
    (low : 2 ≤ cycles) (high : cycles ≤ 7) : Executed i s ((s.setPc pc).addCycles cycles)
  | indirect (ptr pc : Word) (lo hi : Byte) (s1 s2 : State) (which : i = .jmpInd ptr)
    (readLow : s.busRead ptr = .ok (lo, s1))
    (readHigh : s1.busRead ((ptr &&& 0xFF00) ||| ((ptr + 1) &&& 0x00FF)) = .ok (hi, s2)) :
    Executed i s ((s2.setPc pc).addCycles 5)
  | plain (t : State) (effect : Plain i.operation s t) (writes : i.writeMode = none) : Executed i s t

theorem exec_executed {i : Instr} {s t : State} (h : exec i s = .next t) : Executed i s t := by
  cases exec_class i with
  | read mode base extra f effect arm reads _ low high =>
    rw [arm] at h
    obtain ⟨target, m, s1, k, resolved, read, -, extra, rfl⟩ := readOp_next h
    exact .read mode target m s1 (base + k) f effect reads resolved read (by omega) (by omega)
  | immediate imm f effect arm =>
    rw [arm] at h
    obtain rfl := immOp_next h
    exact .immediate imm f effect
  | store mode base reg source arm _ writes low high =>
    rw [arm] at h
    obtain ⟨target, resolved, rfl⟩ := storeOp_next h
    exact .store mode target (reg s) reg base source writes resolved (by omega) (by omega)
  | modify mode base f effect arm _ writes low high =>
    rw [arm] at h
    obtain ⟨target, m, s1, resolved, read, -, rfl⟩ := rmwOp_next h
    exact .modify mode target m s1 f base effect writes resolved read (by omega) (by omega)
  | accumulator f effect _ arm =>
    rw [arm] at h
    obtain rfl := accOp_next h
    exact .accumulator f effect
  | branch rel flag expected which arm =>
    rw [arm] at h
    obtain ⟨pc, k, result, low, high⟩ := branchOp_next (flag s.flags) expected rel s
    rw [result] at h
    cases h
    exact .branch pc k which low (by omega)
  | indirect ptr which arm =>
    rw [arm] at h
    obtain ⟨lo, s1, hi, s2, readLow, readHigh, -, rfl⟩ := jumpIndirect_next h
    exact .indirect ptr _ lo hi s1 s2 which readLow readHigh
  | plain arm _ writes =>
    obtain ⟨_, result, effect⟩ := arm s
    rw [result] at h
    cases h
    exact .plain _ effect writes

/-! ## Ordinary operations -/

/-- The operations that use the stack (R210). -/
def stackOperations : List Operation := [.pha, .php, .pla, .plp, .jsr, .rts, .brk, .rti]

/-- An assigned operation that leaves the stack alone; every operand class, branch and jump has one. -/
abbrev Ordinary (o : Operation) : Prop := o ∉ stackOperations ∧ o ≠ .unassigned

theorem ReadEffect.ordinary {o : Operation} {f : Byte → State → State} (effect : ReadEffect o f) : Ordinary o := by
  cases effect <;> decide

theorem RmwEffect.ordinary {o : Operation} {f : Byte → Flags → Byte × Flags} (effect : RmwEffect o f) : Ordinary o := by
  cases effect <;> decide

theorem StoreSource.ordinary {o : Operation} {reg : State → Byte} (source : StoreSource o reg) : Ordinary o := by
  cases source <;> decide

theorem Ordinary.ofBranch {o : Operation} (which : o ∈ [Operation.bpl, .bmi, .bvc, .bvs, .bcc, .bcs, .bne, .beq]) :
    Ordinary o := by
  revert which
  cases o <;> decide

theorem Ordinary.jmp : Ordinary .jmp := by decide

/-! ## The effects' own frames -/

/-- Only A, X, Y and the flags differ. -/
structure State.RegistersOnly (s t : State) : Prop where
  sp : t.sp = s.sp
  ram : t.ram = s.ram
  cyc : t.cyc = s.cyc
  nmiPending : t.nmiPending = s.nmiPending
  anomalies : t.anomalies = s.anomalies
  faulted : t.faulted = s.faulted
  irqLine : t.irqLine = s.irqLine
  cart : t.cart = s.cart
  ppu : t.ppu = s.ppu

theorem ReadEffect.registersOnly {o : Operation} {f : Byte → State → State} (effect : ReadEffect o f) (m : Byte)
    (s : State) : s.RegistersOnly (f m s) := by
  cases effect <;> exact ⟨rfl, rfl, rfl, rfl, rfl, rfl, rfl, rfl, rfl⟩

@[simp] theorem State.push_sp (s : State) (b : Byte) : (s.push b).sp = s.sp - 1 := rfl
@[simp] theorem State.push_cyc (s : State) (b : Byte) : (s.push b).cyc = s.cyc := by rw [State.push_eq]; rfl
@[simp] theorem State.push_nmiPending (s : State) (b : Byte) : (s.push b).nmiPending = s.nmiPending := by
  rw [State.push_eq]; rfl
@[simp] theorem State.push_anomalies (s : State) (b : Byte) : (s.push b).anomalies = s.anomalies := by
  rw [State.push_eq]; rfl
@[simp] theorem State.push_faulted (s : State) (b : Byte) : (s.push b).faulted = s.faulted := by
  rw [State.push_eq]; rfl
@[simp] theorem State.push_irqLine (s : State) (b : Byte) : (s.push b).irqLine = s.irqLine := by
  rw [State.push_eq]; rfl
@[simp] theorem State.push_cart (s : State) (b : Byte) : (s.push b).cart = s.cart := by rw [State.push_eq]; rfl
@[simp] theorem State.push_ppu (s : State) (b : Byte) : (s.push b).ppu = s.ppu := by rw [State.push_eq]; rfl
@[simp] theorem State.push_flags (s : State) (b : Byte) : (s.push b).flags = s.flags := by rw [State.push_eq]; rfl

/-- A push leaves what no store and no stack move reaches. -/
structure State.StackOnly (s t : State) : Prop where
  nmiPending : t.nmiPending = s.nmiPending
  faulted : t.faulted = s.faulted
  irqLine : t.irqLine = s.irqLine
  cart : t.cart = s.cart
  ppu : t.ppu = s.ppu

/-- Every implied instruction leaves the console's state and the PPU. -/
theorem Plain.stackOnly {o : Operation} {s t : State} (effect : Plain o s t) : s.StackOnly t := by
  cases effect
  case pha | php | jsr | brk => constructor <;> simp [callSubroutine, State.pushWord]
  all_goals exact ⟨rfl, rfl, rfl, rfl, rfl⟩

/-! ## Cycles -/

/-- What an operation may add to `cyc` (R132). -/
def CyclesOf (o : Operation) (s t : State) : Prop :=
  (o = .unassigned ∧ t.cyc = s.cyc + 1) ∨ (o ≠ .unassigned ∧ s.cyc + 2 ≤ t.cyc ∧ t.cyc ≤ s.cyc + 7)

theorem CyclesOf.assigned {o : Operation} {s t : State} {k : Nat} (which : o ≠ .unassigned) (cyc : t.cyc = s.cyc + k)
    (low : 2 ≤ k) (high : k ≤ 7) : CyclesOf o s t :=
  .inr ⟨which, by omega, by omega⟩

theorem Plain.cyc {o : Operation} {s t : State} (effect : Plain o s t) : CyclesOf o s t := by
  cases effect
  case unassigned => exact .inl ⟨rfl, rfl⟩
  case pha | php | jsr | brk =>
    refine .assigned (by decide) (by simp [callSubroutine, State.pushWord]; rfl) (by decide) (by decide)
  all_goals exact .assigned (by decide) rfl (by decide) (by decide)

theorem exec_cyc {i : Instr} {s t : State} (h : exec i s = .next t) : CyclesOf i.operation s t := by
  cases exec_executed h with
  | read mode target m s1 cycles f effect _ _ read low high =>
    have cyc := (effect.registersOnly m s1).cyc.trans (State.busRead_reads read).cyc
    exact .assigned effect.ordinary.2 (congrArg (· + cycles) cyc) low high
  | immediate imm f effect =>
    exact .assigned effect.ordinary.2 (congrArg (· + 2) (effect.registersOnly imm s).cyc) (by decide) (by decide)
  | store mode target b reg cycles source _ _ low high => exact .assigned source.ordinary.2 (by simp) low high
  | modify mode target m s1 f cycles effect _ _ read low high =>
    exact .assigned effect.ordinary.2 (by simp [(State.busRead_reads read).cyc]) low high
  | accumulator f effect => exact .assigned effect.ordinary.2 rfl (by decide) (by decide)
  | branch pc cycles which low high => exact .assigned (Ordinary.ofBranch which).2 rfl low high
  | indirect ptr pc lo hi s1 s2 which readLow readHigh =>
    have cyc := (State.busRead_reads readHigh).cyc.trans (State.busRead_reads readLow).cyc
    subst which
    exact .assigned Ordinary.jmp.2 (congrArg (· + 5) cyc) (by decide) (by decide)
  | plain t effect => exact effect.cyc

/-- Settles O16: one cycle for an unassigned byte, the table's 2 to 7 for the rest. -/
theorem cyclesOfInstructions : Obligations.CyclesOfInstructions := by
  unfold Obligations.CyclesOfInstructions
  intro i s t h
  rcases exec_cyc h with ⟨unassigned, cyc⟩ | ⟨assigned, cyc⟩
  · exact ⟨fun _ => cyc, fun assigned => absurd unassigned assigned⟩
  · exact ⟨fun unassigned => absurd unassigned assigned, fun _ => cyc⟩

/-! ## SP -/

/-- Where SP stands after an operation other than TXS (R14, R210). -/
def spAfter (sp : Byte) : Operation → Byte
  | .pha | .php => sp - 1
  | .pla | .plp => sp + 1
  | .jsr => sp - 2
  | .rts => sp + 2
  | .brk => sp - 3
  | .rti => sp + 3
  | _ => sp

theorem Plain.sp {o : Operation} {s t : State} (effect : Plain o s t) (notTxs : o ≠ .txs) : t.sp = spAfter s.sp o := by
  cases effect
  case txs => exact absurd rfl notTxs
  case jsr => simp [callSubroutine, State.pushWord, spAfter, BitVec.sub_sub]
  case brk => simp [State.pushWord, spAfter, BitVec.sub_sub]
  all_goals rfl

theorem spAfter_ordinary (sp : Byte) {o : Operation} (ordinary : Ordinary o) : spAfter sp o = sp := by
  cases o
  case pha | php | pla | plp | jsr | rts | brk | rti => exact absurd (by decide) ordinary.1
  all_goals rfl

theorem exec_sp {i : Instr} {s t : State} (h : exec i s = .next t) (notTxs : i.operation ≠ .txs) :
    t.sp = spAfter s.sp i.operation := by
  cases exec_executed h with
  | read mode target m s1 cycles f effect _ _ read =>
    rw [spAfter_ordinary s.sp effect.ordinary]
    exact (effect.registersOnly m s1).sp.trans (State.busRead_reads read).sp
  | immediate imm f effect =>
    rw [spAfter_ordinary s.sp effect.ordinary]
    exact (effect.registersOnly imm s).sp
  | store mode target b reg cycles source =>
    rw [spAfter_ordinary s.sp source.ordinary]
    exact State.busWrite_sp s target.ea b
  | modify mode target m s1 f cycles effect _ _ read =>
    rw [spAfter_ordinary s.sp effect.ordinary]
    exact (State.busWrite_sp s1 target.ea _).trans (State.busRead_reads read).sp
  | accumulator f effect =>
    rw [spAfter_ordinary s.sp effect.ordinary]
    rfl
  | branch pc cycles which =>
    rw [spAfter_ordinary s.sp (.ofBranch which)]
    rfl
  | indirect ptr pc lo hi s1 s2 which readLow readHigh =>
    subst which
    exact (State.busRead_reads readHigh).sp.trans (State.busRead_reads readLow).sp
  | plain t effect => exact effect.sp notTxs

/-- Settles O20: the stack operations each move SP by their own count. -/
theorem writersOfStackPointer : Obligations.WritersOfStackPointer := by
  unfold Obligations.WritersOfStackPointer
  intro i s t h
  have sp := exec_sp h
  generalize i.operation = o at sp ⊢
  refine ⟨fun still => ?still, fun push => ?push, fun pull => ?pull, ?jsr, ?rts, ?brk, ?rti⟩
  case still =>
    cases o
    case pha | php | pla | plp | jsr | rts | brk | rti | txs => exact absurd (by decide) still
    all_goals exact sp nofun
  case push =>
    obtain rfl | rfl : o = .pha ∨ o = .php := by simpa using push
    all_goals exact sp nofun
  case pull =>
    obtain rfl | rfl : o = .pla ∨ o = .plp := by simpa using pull
    all_goals exact sp nofun
  case jsr | rts | brk | rti =>
    rintro rfl
    exact sp nofun

/-! ## Flags -/

/-- The operations that write N and Z (R18). -/
def writersOfNZ : List Operation :=
  [.adc, .sbc, .and, .ora, .eor, .cmp, .cpx, .cpy, .bit, .inc, .dec, .inx, .iny, .dex, .dey, .asl, .lsr, .rol, .ror, .lda,
    .ldx, .ldy, .tax, .tay, .txa, .tya, .tsx, .pla, .plp, .rti]

/-- The operations that write V (R18). -/
def writersOfV : List Operation := [.adc, .sbc, .bit, .clv, .plp, .rti]

/-- The operations that write D (R18). -/
def writersOfD : List Operation := [.sed, .cld, .plp, .rti]

/-- The operations that write I (R18). -/
def writersOfI : List Operation := [.sei, .cli, .brk, .plp, .rti]

/-- The operations that write C (R18). -/
def writersOfC : List Operation := [.adc, .sbc, .cmp, .cpx, .cpy, .asl, .lsr, .rol, .ror, .clc, .sec, .plp, .rti]

/-- From the flags `f` to `g`, each flag has the operation among its writers or stays. -/
structure FlagFrame (o : Operation) (f g : Flags) : Prop where
  nz : o ∈ writersOfNZ ∨ (g.n = f.n ∧ g.z = f.z)
  v : o ∈ writersOfV ∨ g.v = f.v
  d : o ∈ writersOfD ∨ g.d = f.d
  i : o ∈ writersOfI ∨ g.i = f.i
  c : o ∈ writersOfC ∨ g.c = f.c

theorem FlagFrame.ofKept {o : Operation} {f g : Flags} (kept : g = f) : FlagFrame o f g := by
  subst kept
  exact ⟨.inr ⟨rfl, rfl⟩, .inr rfl, .inr rfl, .inr rfl, .inr rfl⟩

theorem ReadEffect.flagFrame {o : Operation} {f : Byte → State → State} (effect : ReadEffect o f) (m : Byte) (s : State) :
    FlagFrame o s.flags (f m s).flags := by
  cases effect
  case adc | sbc => exact ⟨.inl (by decide), .inl (by decide), .inr rfl, .inr rfl, .inl (by decide)⟩
  case bit => exact ⟨.inl (by decide), .inl (by decide), .inr rfl, .inr rfl, .inr rfl⟩
  case cmp | cpx | cpy => exact ⟨.inl (by decide), .inr rfl, .inr rfl, .inr rfl, .inl (by decide)⟩
  case and | ora | eor | lda | ldx | ldy => exact ⟨.inl (by decide), .inr rfl, .inr rfl, .inr rfl, .inr rfl⟩

theorem RmwEffect.flagFrame {o : Operation} {f : Byte → Flags → Byte × Flags} (effect : RmwEffect o f) (m : Byte)
    (flags : Flags) : FlagFrame o flags (f m flags).2 := by
  cases effect
  case asl | lsr | rol | ror => exact ⟨.inl (by decide), .inr rfl, .inr rfl, .inr rfl, .inl (by decide)⟩
  case inc | dec => exact ⟨.inl (by decide), .inr rfl, .inr rfl, .inr rfl, .inr rfl⟩

theorem Plain.flagFrame {o : Operation} {s t : State} (effect : Plain o s t) : FlagFrame o s.flags t.flags := by
  cases effect
  case plp | rti => exact ⟨.inl (by decide), .inl (by decide), .inl (by decide), .inl (by decide), .inl (by decide)⟩
  case pla | inx | iny | dex | dey | tax | tay | txa | tya | tsx =>
    exact ⟨.inl (by decide), .inr rfl, .inr rfl, .inr rfl, .inr rfl⟩
  case clc | sec => exact ⟨.inr ⟨rfl, rfl⟩, .inr rfl, .inr rfl, .inr rfl, .inl (by decide)⟩
  case cli | sei | brk => exact ⟨.inr ⟨rfl, rfl⟩, .inr rfl, .inr rfl, .inl (by decide), .inr rfl⟩
  case cld | sed => exact ⟨.inr ⟨rfl, rfl⟩, .inr rfl, .inl (by decide), .inr rfl, .inr rfl⟩
  case clv => exact ⟨.inr ⟨rfl, rfl⟩, .inl (by decide), .inr rfl, .inr rfl, .inr rfl⟩
  case pha | php | jsr => exact .ofKept (by simp [callSubroutine, State.pushWord])
  case rts | jmp | txs | nop | unassigned => exact .ofKept rfl

theorem exec_flagFrame {i : Instr} {s t : State} (h : exec i s = .next t) :
    FlagFrame i.operation s.flags t.flags := by
  cases exec_executed h with
  | read mode target m s1 cycles f effect _ _ read =>
    rw [← (State.busRead_reads read).flags]
    exact effect.flagFrame m s1
  | immediate imm f effect => exact effect.flagFrame imm s
  | store mode target b => exact .ofKept (State.busWrite_flags s target.ea b)
  | modify mode target m s1 f cycles effect => exact effect.flagFrame m s.flags
  | accumulator f effect => exact effect.flagFrame s.a s.flags
  | branch pc cycles => exact .ofKept rfl
  | indirect ptr pc lo hi s1 s2 which readLow readHigh =>
    exact .ofKept ((State.busRead_reads readHigh).flags.trans (State.busRead_reads readLow).flags)
  | plain t effect => exact effect.flagFrame

/-- Settles O21: every class keeps to the frame that R18's table gives its operation. -/
theorem writersOfFlags : Obligations.WritersOfFlags := by
  unfold Obligations.WritersOfFlags
  intro i s t h
  have frame := exec_flagFrame h
  exact ⟨frame.nz.resolve_left, frame.v.resolve_left, frame.d.resolve_left, frame.i.resolve_left, frame.c.resolve_left⟩

/-! ## Memory -/

/-- `peek` sees RAM and the cartridge. -/
theorem State.peek_eq {s t : State} {addr : Word} (cart : t.cart = s.cart)
    (ram : addr.toNat < 0x2000 → t.ramRead addr = s.ramRead addr) : t.peek addr = s.peek addr := by
  by_cases low : addr.toNat < 0x2000
  · rw [State.peek, State.peek, if_pos low, if_pos low, ram low]
  · rw [State.peek, State.peek, if_neg low, if_neg low, cart]

theorem State.peek_of_ram {s t : State} (addr : Word) (cart : t.cart = s.cart) (ram : t.ram = s.ram) :
    t.peek addr = s.peek addr :=
  State.peek_eq cart fun _ => by rw [State.ramRead, ram, State.ramRead]

theorem State.busWrite_peek (s : State) {target addr : Word} (v : Byte) (h : ¬ sameRamByte target addr) :
    (s.busWrite target v).peek addr = s.peek addr :=
  State.peek_eq (s.busWrite_cart target v) fun low => s.busWrite_ram_ne v fun same => h ⟨same.1, low, same.2⟩

theorem State.push_peek (s : State) {addr : Word} (b : Byte) (h : ¬ sameRamByte (stackAddr s.sp) addr) :
    (s.push b).peek addr = s.peek addr := s.busWrite_peek b h

theorem State.pushWord_peek (s : State) {addr : Word} (w : Word) (high : ¬ sameRamByte (stackAddr s.sp) addr)
    (low : ¬ sameRamByte (stackAddr (s.sp - 1)) addr) : (s.pushWord w).peek addr = s.peek addr :=
  ((s.push (hiByte w)).push_peek (loByte w) low).trans (s.push_peek (hiByte w) high)

theorem storedAddrs_mode {i : Instr} {s : State} {mode : MemMode} {target : Target} (writes : i.writeMode = some mode)
    (resolved : s.resolve mode = .ok (target, s)) : storedAddrs i s = [target.ea] := by
  rw [storedAddrs, writes]
  simp only [resolved]

/-- The stack bytes an operation pushes, in order (R210). -/
def pushedAddrs (sp : Byte) : Operation → List Word
  | .pha | .php => [stackAddr sp]
  | .jsr => [stackAddr sp, stackAddr (sp - 1)]
  | .brk => [stackAddr sp, stackAddr (sp - 1), stackAddr (sp - 2)]
  | _ => []

theorem storedAddrs_plain {i : Instr} {s : State} (writes : i.writeMode = none) :
    storedAddrs i s = pushedAddrs s.sp i.operation := by
  rw [storedAddrs, writes]
  cases i.operation <;> rfl

theorem Plain.peek {o : Operation} {s t : State} {addr : Word} (effect : Plain o s t)
    (h : ∀ a ∈ pushedAddrs s.sp o, ¬ sameRamByte a addr) : t.peek addr = s.peek addr := by
  cases effect
  case pha | php => exact s.push_peek _ (h _ (by simp [pushedAddrs]))
  case jsr => exact s.pushWord_peek _ (h _ (by simp [pushedAddrs])) (h _ (by simp [pushedAddrs]))
  case brk =>
    have sp : (s.pushWord (s.pc + 1)).sp = s.sp - 2 := by rw [State.pushWord_eq]; rfl
    have word : (s.pushWord (s.pc + 1)).peek addr = s.peek addr :=
      s.pushWord_peek _ (h _ (by simp [pushedAddrs])) (h _ (by simp [pushedAddrs]))
    have status : ((s.pushWord (s.pc + 1)).push (s.flags.pack true)).peek addr = (s.pushWord (s.pc + 1)).peek addr :=
      State.push_peek _ _ (by rw [sp]; exact h _ (by simp [pushedAddrs]))
    exact (State.peek_of_ram addr rfl rfl).trans (status.trans word)
  all_goals exact State.peek_of_ram addr rfl rfl

/-- Settles O22: the classes that write do so once, at their target; the stack operations at the slots they push. -/
theorem storesOnlyWhereComputed : Obligations.StoresOnlyWhereComputed := by
  unfold Obligations.StoresOnlyWhereComputed
  intro i s t h addr elsewhere
  cases exec_executed h with
  | read mode target m s1 cycles f effect _ _ read =>
    have reads := State.busRead_reads read
    have effect := effect.registersOnly m s1
    exact State.peek_of_ram addr (effect.cart.trans reads.cart) (effect.ram.trans reads.ram)
  | immediate imm f effect =>
    have effect := effect.registersOnly imm s
    exact State.peek_of_ram addr effect.cart effect.ram
  | store mode target b reg cycles source writes resolved =>
    rw [storedAddrs_mode writes resolved] at elsewhere
    exact s.busWrite_peek b (elsewhere _ List.mem_cons_self)
  | modify mode target m s1 f cycles effect writes resolved read =>
    rw [storedAddrs_mode writes resolved] at elsewhere
    have reads := State.busRead_reads read
    exact (s1.busWrite_peek _ (elsewhere _ List.mem_cons_self)).trans (State.peek_of_ram addr reads.cart reads.ram)
  | accumulator f effect => exact State.peek_of_ram addr rfl rfl
  | branch pc cycles => exact State.peek_of_ram addr rfl rfl
  | indirect ptr pc lo hi s1 s2 which readLow readHigh =>
    have reads := (State.busRead_reads readLow).trans (State.busRead_reads readHigh)
    exact State.peek_of_ram addr reads.cart reads.ram
  | plain t effect writes =>
    rw [storedAddrs_plain writes] at elsewhere
    exact effect.peek elsewhere

/-! ## The console's state -/

/-- What no instruction touches, and the anomaly log, which an unassigned byte alone does (R22, R23, R26, R304). -/
structure ConsoleFrame (o : Operation) (s t : State) : Prop where
  faulted : t.faulted = s.faulted
  nmiPending : t.nmiPending = s.nmiPending
  irqLine : t.irqLine = s.irqLine
  cart : t.cart = s.cart
  anomalies : o ≠ .unassigned → t.anomalies = s.anomalies

theorem State.Reads.consoleFrame {o : Operation} {s t : State} (reads : s.Reads t) : ConsoleFrame o s t :=
  ⟨reads.faulted, reads.nmiPending, reads.irqLine, reads.cart, fun _ => reads.anomalies⟩

theorem State.RegistersOnly.consoleFrame {o : Operation} {s t : State} (effect : s.RegistersOnly t) : ConsoleFrame o s t :=
  ⟨effect.faulted, effect.nmiPending, effect.irqLine, effect.cart, fun _ => effect.anomalies⟩

theorem ConsoleFrame.trans {o : Operation} {s t u : State} (h : ConsoleFrame o s t) (k : ConsoleFrame o t u) :
    ConsoleFrame o s u :=
  ⟨k.faulted.trans h.faulted, k.nmiPending.trans h.nmiPending, k.irqLine.trans h.irqLine, k.cart.trans h.cart,
    fun assigned => (k.anomalies assigned).trans (h.anomalies assigned)⟩

theorem State.busWrite_consoleFrame {o : Operation} (s : State) (addr : Word) (v : Byte) :
    ConsoleFrame o s (s.busWrite addr v) :=
  ⟨s.busWrite_faulted addr v, s.busWrite_nmiPending addr v, s.busWrite_irqLine addr v, s.busWrite_cart addr v,
    fun _ => s.busWrite_anomalies addr v⟩

theorem Plain.consoleFrame {o : Operation} {s t : State} (effect : Plain o s t) : ConsoleFrame o s t := by
  cases effect
  case pha | php | jsr | brk => constructor <;> simp [callSubroutine, State.pushWord]
  case unassigned => exact ⟨rfl, rfl, rfl, rfl, fun assigned => absurd rfl assigned⟩
  all_goals exact ⟨rfl, rfl, rfl, rfl, fun _ => rfl⟩

theorem ConsoleFrame.addCycles {o : Operation} {s t : State} (h : ConsoleFrame o s t) (k : Nat) :
    ConsoleFrame o s (t.addCycles k) :=
  ⟨h.faulted, h.nmiPending, h.irqLine, h.cart, h.anomalies⟩

theorem exec_consoleFrame {i : Instr} {s t : State} (h : exec i s = .next t) : ConsoleFrame i.operation s t := by
  cases exec_executed h with
  | read mode target m s1 cycles f effect _ _ read =>
    exact ((State.busRead_reads read).consoleFrame.trans (effect.registersOnly m s1).consoleFrame).addCycles cycles
  | immediate imm f effect => exact (effect.registersOnly imm s).consoleFrame.addCycles 2
  | store mode target b reg cycles => exact (s.busWrite_consoleFrame target.ea b).addCycles cycles
  | modify mode target m s1 f cycles effect _ _ read =>
    have frame := (State.busRead_reads read).consoleFrame.trans
      (s1.busWrite_consoleFrame (o := i.operation) target.ea (f m s.flags).1)
    exact ⟨frame.faulted, frame.nmiPending, frame.irqLine, frame.cart, frame.anomalies⟩
  | accumulator f effect => exact ⟨rfl, rfl, rfl, rfl, fun _ => rfl⟩
  | branch pc cycles => exact ⟨rfl, rfl, rfl, rfl, fun _ => rfl⟩
  | indirect ptr pc lo hi s1 s2 which readLow readHigh =>
    have frame := ((State.busRead_reads readLow).trans (State.busRead_reads readHigh)).consoleFrame (o := i.operation)
    exact ⟨frame.faulted, frame.nmiPending, frame.irqLine, frame.cart, frame.anomalies⟩
  | plain t effect => exact effect.consoleFrame

/-- The machine that a fault carries: `s` but for the PPU and the draw index, with `faulted` set (R24, R62). -/
theorem State.RaisesAt.left {s u : State} {e : Fault} (reads : s.Reads u) (raises : u.RaisesAt e) :
    ∃ (a : Word) (t : State), e = .mapperOutOfRange a t ∧ a = u.ppu.address.setWidth 16 ∧ t.ppu = u.ppu ∧
      t = { s with ppu := t.ppu, draws := t.draws, faulted := some (.mapperOutOfRange a) } :=
  ⟨_, u.setFaulted _, raises.raised, rfl, rfl, by rw [reads.eq]; rfl⟩

/-- Settles O23: completing keeps to the console's frame; failing is the raise of one bus read. -/
theorem execKeepsConsoleState : Obligations.ExecKeepsConsoleState := by
  unfold Obligations.ExecKeepsConsoleState
  refine ⟨fun i s t h => ?completes, fun i s e h => ?fails⟩
  case completes =>
    have frame := exec_consoleFrame h
    exact ⟨frame.faulted, frame.nmiPending, frame.irqLine, frame.cart, frame.anomalies⟩
  case fails =>
    obtain ⟨u, addr, reads, failed, -⟩ := exec_fault h
    rcases u.busRead_cases addr with ⟨_, _, read⟩ | ⟨e', raised, raises, -⟩
    · rw [failed] at read
      cases read
    · rw [failed] at raised
      cases raised
      obtain ⟨a, t, fault, -, -, left⟩ := State.RaisesAt.left reads raises
      exact ⟨a, t, fault, left⟩

/-! ## The PPU -/

/-- Outside the register window a bus write leaves the PPU alone (R52). -/
theorem State.busWrite_ppu_eq (s : State) {addr : Word} (v : Byte) (h : ¬ inPpuWindow addr) :
    (s.busWrite addr v).ppu = s.ppu := by
  rcases s.busWrite_cases addr v with ⟨-, ram⟩ | ⟨low, high, -⟩ | ⟨-, same⟩
  · rw [ram]
    rfl
  · exact absurd ⟨low, high⟩ h
  · rw [same]

/-- Settles O24: an instruction's bus accesses are those of its class, and the stack's are in page 1. -/
theorem ppuReachedOnlyThroughItsWindow : Obligations.PpuReachedOnlyThroughItsWindow := by
  unfold Obligations.PpuReachedOnlyThroughItsWindow
  intro i s t h outside pointers
  cases exec_executed h with
  | read mode target m s1 cycles f effect reads resolved read =>
    have window := outside mode (.inl reads) target s resolved
    exact (effect.registersOnly m s1).ppu.trans (State.busRead_ppu_eq read window)
  | immediate imm f effect => exact (effect.registersOnly imm s).ppu
  | store mode target b reg cycles source writes resolved =>
    exact s.busWrite_ppu_eq b (outside mode (.inr writes) target s resolved)
  | modify mode target m s1 f cycles effect writes resolved read =>
    have window := outside mode (.inr writes) target s resolved
    exact (s1.busWrite_ppu_eq _ window).trans (State.busRead_ppu_eq read window)
  | accumulator f effect => rfl
  | branch pc cycles => rfl
  | indirect ptr pc lo hi s1 s2 which readLow readHigh =>
    obtain ⟨low, high⟩ := pointers ptr which
    exact (State.busRead_ppu_eq readHigh high).trans (State.busRead_ppu_eq readLow low)
  | plain t effect => exact effect.stackOnly.ppu

end Sys2Proof.Machine
end

section
/-! PROOF. The console step (60_exceptions.md R326): what fetching an instruction reads, the order of the interrupts, what
every step keeps, and where a step can stop. -/

namespace Sys2Proof.Machine

/-! ## Fetching -/

theorem State.fetchInstr_f1 {s s1 : State} {op : Byte} {i : Instr} (opcode : s.fetch = .ok (op, s1))
    (entry : lookup op = .f1 i) : s.fetchInstr = .ok (i, s1) := by
  simp only [State.fetchInstr, opcode, bind, Except.bind, entry]
  rfl

theorem State.fetchInstr_f2 {s s1 : State} {op : Byte} {build : Byte → Instr} (opcode : s.fetch = .ok (op, s1))
    (entry : lookup op = .f2 build) : s.fetchInstr = do
      let (b, s2) ← s1.fetch
      return (build b, s2) := by
  simp only [State.fetchInstr, opcode, bind, Except.bind, entry]

theorem State.fetchInstr_f3 {s s1 : State} {op : Byte} {build : Word → Instr} (opcode : s.fetch = .ok (op, s1))
    (entry : lookup op = .f3 build) : s.fetchInstr = do
      let (lo, s2) ← s1.fetch
      let (hi, s3) ← s2.fetch
      return (build (wordOf hi lo), s3) := by
  simp only [State.fetchInstr, opcode, bind, Except.bind, entry]

theorem State.fetchInstr_error {s : State} {e : Fault} (failed : s.busRead s.pc = .error e) : s.fetchInstr = .error e := by
  simp only [State.fetchInstr, State.fetch_eq, failed, bind, Except.bind]

theorem fetchedBytes_succ (n : Nat) (s : State) : fetchedBytes (n + 1) s = do
    let (b, s1) ← s.fetch
    let (bs, t) ← fetchedBytes n s1
    return (b :: bs, t) := by
  rw [fetchedBytes, State.fetch_eq]
  rcases s.busRead s.pc with e | ⟨b, s1⟩
  · rfl
  · change (match fetchedBytes n (s1.setPc (s.pc + 1)) with | .error e => _ | .ok (bs, s2) => _) = _
    simp only [bind, Except.bind]
    rcases fetchedBytes n (s1.setPc (s.pc + 1)) with e | ⟨bs, t⟩ <;> rfl

/-- Fetching an instruction is fetching the bytes its opcode asks for and decoding them (R101, R130). -/
theorem State.fetchInstr_fetchedBytes {s s1 : State} {op : Byte} (read : s.busRead s.pc = .ok (op, s1)) :
    (∃ bytes t i, fetchedBytes (opcodeLength op) s = .ok (bytes, t) ∧ decode bytes = .ok (i, []) ∧
      s.fetchInstr = .ok (i, t)) ∨
    ∃ e, fetchedBytes (opcodeLength op) s = .error e ∧ s.fetchInstr = .error e := by
  have opcode : s.fetch = .ok (op, s1.setPc (s.pc + 1)) := by rw [State.fetch_eq, read]
  cases entry : lookup op with
  | f1 i =>
    have bytes : fetchedBytes (opcodeLength op) s = .ok ([op], s1.setPc (s.pc + 1)) := by
      rw [opcodeLength, entry, fetchedBytes_succ, opcode]
      rfl
    exact .inl ⟨_, _, i, bytes, decode_f1 entry [], State.fetchInstr_f1 opcode entry⟩
  | f2 build =>
    rw [State.fetchInstr_f2 opcode entry, opcodeLength, entry, fetchedBytes_succ, opcode]
    simp only [bind, Except.bind, fetchedBytes_succ]
    rcases (s1.setPc (s.pc + 1)).fetch with e | ⟨b, s2⟩
    · exact .inr ⟨e, rfl, rfl⟩
    · exact .inl ⟨_, _, _, rfl, decode_f2 entry b [], rfl⟩
  | f3 build =>
    rw [State.fetchInstr_f3 opcode entry, opcodeLength, entry, fetchedBytes_succ, opcode]
    simp only [bind, Except.bind, fetchedBytes_succ]
    rcases (s1.setPc (s.pc + 1)).fetch with e | ⟨lo, s2⟩
    · exact .inr ⟨e, rfl, rfl⟩
    · dsimp only
      rcases s2.fetch with e | ⟨hi, s3⟩
      · exact .inr ⟨e, rfl, rfl⟩
      · exact .inl ⟨_, _, _, rfl, decode_f3 entry lo hi [], rfl⟩

/-- A fetched instruction is one the decoder answers, so a well-formed one (R106). -/
theorem State.fetchInstr_wf {s t : State} {i : Instr} (fetched : s.fetchInstr = .ok (i, t)) : i.wf = true := by
  rcases read : s.busRead s.pc with e | ⟨op, s1⟩
  · rw [State.fetchInstr_error read] at fetched
    cases fetched
  · rcases State.fetchInstr_fetchedBytes read with ⟨bytes, t', j, -, decoded, ok⟩ | ⟨e, -, failed⟩
    · rw [ok] at fetched
      cases fetched
      exact (encodeInvertsDecode _ _ _ decoded).1
    · rw [failed] at fetched
      cases fetched

theorem opcodeLength_of_decode {op : Byte} {operand : List Byte} {i : Instr}
    (decoded : decode (op :: operand) = .ok (i, [])) : opcodeLength op = operand.length + 1 := by
  rw [opcodeLength]
  cases entry : lookup op with
  | f1 j =>
    rw [decode_f1 entry] at decoded
    cases decoded
    rfl
  | f2 build =>
    match operand with
    | [] => rw [decode_f2_short entry] at decoded; cases decoded
    | b :: rest => rw [decode_f2 entry] at decoded; cases decoded; rfl
  | f3 build =>
    match operand with
    | [] => rw [decode_f3_short entry (by simp)] at decoded; cases decoded
    | [_] => rw [decode_f3_short entry (by simp)] at decoded; cases decoded
    | lo :: hi :: rest => rw [decode_f3 entry] at decoded; cases decoded; rfl

theorem State.setPc_peek (s : State) (pc addr : Word) : (s.setPc pc).peek addr = s.peek addr :=
  State.peek_of_ram addr rfl rfl

/-- Bytes that lie at PC where reading changes nothing are fetched with PC alone moved. -/
theorem fetchedBytes_of_peek (bytes : List Byte) (s : State)
    (lie : ∀ k b, bytes[k]? = some b → s.peek (s.pc + BitVec.ofNat 16 k) = some b) :
    fetchedBytes bytes.length s = .ok (bytes, s.setPc (s.pc + BitVec.ofNat 16 bytes.length)) := by
  induction bytes generalizing s with
  | nil => simp [fetchedBytes, State.setPc]
  | cons b bs ih =>
    have head : s.peek s.pc = some b := by simpa using lie 0 b rfl
    have next (k : Nat) : s.pc + 1 + BitVec.ofNat 16 k = s.pc + BitVec.ofNat 16 (k + 1) := by
      rw [BitVec.add_assoc, BitVec.add_comm 1, BitVec.ofNat_add]
      rfl
    have tail := ih (s.setPc (s.pc + 1)) fun k c at_k => by
      rw [State.setPc_peek, State.setPc_pc, next]
      exact lie (k + 1) c at_k
    rw [List.length_cons, fetchedBytes_succ, State.fetch_of_peek head]
    simp only [bind, Except.bind, tail, State.setPc_pc, next]
    rfl

/-! ## The step, by what it serves -/

section
variable {s : State}

theorem step_of_faulted {e : ProgrammingError} (faulted : s.faulted = some e) : step s = .fault (s.raise e) := by
  simp only [step, faulted]

variable (unfaulted : s.faulted = none)
include unfaulted

theorem step_of_nmi (nmi : s.nmiPending = true) :
    step s = tickAfter s (interruptEntry nmiVector (s.setNmiPending false)) := by
  simp only [step, unfaulted, nmi, if_true]

theorem step_of_irq (nmi : s.nmiPending = false) (irq : (s.irqLine && !s.flags.i) = true) :
    step s = tickAfter s (interruptEntry irqVector s) := by
  simp [step, unfaulted, nmi, irq]

theorem step_of_fetch {i : Instr} {s1 : State} (nmi : s.nmiPending = false) (irq : (s.irqLine && !s.flags.i) = false)
    (fetched : s.fetchInstr = .ok (i, s1)) : step s = tickAfter s (exec i s1) := by
  simp [step, unfaulted, nmi, irq, fetched]

theorem step_of_fetch_error {e : Fault} (nmi : s.nmiPending = false) (irq : (s.irqLine && !s.flags.i) = false)
    (failed : s.fetchInstr = .error e) : step s = .fault e := by
  simp [step, unfaulted, nmi, irq, failed]

end

/-- Settles O6: the step's last branch, with the fetch read off byte by byte. -/
theorem stepRunsDecodedInstruction : Obligations.StepRunsDecodedInstruction := by
  unfold Obligations.StepRunsDecodedInstruction
  intro s unfaulted nmi irq
  refine ⟨?runs, fun r failed => step_of_fetch_error unfaulted nmi irq failed, fun r => State.fetchInstr_error,
    ?bytes, ?peeked, s.tick_eq⟩
  case runs =>
    intro i s1 fetched
    rw [step_of_fetch unfaulted nmi irq fetched]
    cases exec i s1 <;> rfl
  case bytes =>
    intro op s1 read
    rcases State.fetchInstr_fetchedBytes read with ⟨bytes, t, i, fetched, decoded, ok⟩ | ⟨e, fetched, failed⟩
    · rw [fetched]
      exact ⟨i, decoded, ok⟩
    · rw [fetched]
      exact failed
  case peeked =>
    intro bytes i decoded lie
    match bytes with
    | [] => cases decoded
    | op :: operand =>
      have read : s.busRead s.pc = .ok (op, s) := State.busRead_of_peek (by simpa using lie 0 op rfl)
      have whole := fetchedBytes_of_peek (op :: operand) s lie
      rw [List.length_cons, ← opcodeLength_of_decode decoded] at whole
      rcases State.fetchInstr_fetchedBytes read with ⟨bytes, t, j, fetched, decoded', ok⟩ | ⟨e, fetched, failed⟩
      · rw [whole] at fetched
        cases fetched
        rw [decoded] at decoded'
        cases decoded'
        rw [ok, List.length_cons, ← opcodeLength_of_decode decoded]
        rfl
      · rw [whole] at fetched
        cases fetched

/-- An interrupt entry from a state with `cyc` as before the step is ticked for its 7 cycles (R310). -/
theorem tickAfter_interruptEntry {before s : State} {vector : Word} (cyc : s.cyc = before.cyc)
    (which : vector = 0xFFFA ∨ vector = 0xFFFE) :
    ∃ t, interruptEntry vector s = .next t ∧ tickAfter before (interruptEntry vector s) = .next (t.tick 7) := by
  have entry := interruptEntryEffect s vector which
  refine ⟨_, entry, ?_⟩
  rw [entry, tickAfter, cyc, Nat.add_sub_cancel_left]

/-- Settles O7: the three first branches of the step, each interrupt by its entry. -/
theorem stepServesInterruptsInOrder : Obligations.StepServesInterruptsInOrder := by
  unfold Obligations.StepServesInterruptsInOrder
  refine fun s => ⟨fun addr faulted => ?_, fun unfaulted nmi => ?_, fun unfaulted nmi line clear => ?_⟩
  · rw [step_of_faulted faulted, State.raise_faulted faulted]
  · rw [step_of_nmi unfaulted nmi]
    exact tickAfter_interruptEntry (s := s.setNmiPending false) rfl (.inl rfl)
  · rw [step_of_irq unfaulted nmi (by simp [line, clear])]
    exact tickAfter_interruptEntry rfl (.inr rfl)

/-! ## What every step keeps -/

/-- Bus reads, bus writes and ticks leave what no register access and no tick of the PPU reaches (D19; log 10, 19). -/
theorem step_ppuInputs {s t : State} (h : step s = .next t) :
    t.ppu.raceWindow = s.ppu.raceWindow ∧ t.ppu.oam2 = s.ppu.oam2 := by
  refine (step_keeps (P := fun p => p.raceWindow = s.ppu.raceWindow ∧ p.oam2 = s.ppu.oam2) (R := fun _ => True) h
    ⟨rfl, rfl⟩ trivial ?read ?write (fun _ _ _ _ => trivial) ?tick).1
  case read =>
    intro u v b addr read kept
    rw [State.busRead_frame read]
    exact kept
  case write =>
    intro u addr d kept
    rcases u.busWrite_cases addr d with ⟨-, wrote⟩ | ⟨-, -, wrote⟩ | ⟨-, wrote⟩ <;> rw [wrote]
    · exact kept
    · have accessed := u.ppu.registerWrite_accessed (ppuRegister addr) d u.cyc
      exact ⟨accessed.raceWindow.trans kept.1, accessed.oam2.trans kept.2⟩
    · exact kept
  case tick =>
    intro p n kept
    have ticked := p.tick_ticked n
    exact ⟨ticked.raceWindow.trans kept.1, ticked.oam2.trans kept.2⟩

/-- Every step keeps the PPU's and RAM's part of the invariant (R19, R27, R320). -/
theorem step_kept {s t : State} (h : step s = .next t) (ppu : s.ppu.Kept)
    (ram : s.ram.wf = true ∧ s.ram.below 0x0800 = true) :
    t.ppu.Kept ∧ t.ram.wf = true ∧ t.ram.below 0x0800 = true := by
  refine step_keeps (P := Ppu.Kept) (R := fun m => m.wf = true ∧ m.below 0x0800 = true) h ppu ram ?read ?write ?store
    fun p n kept => Ppu.tick_keeps kept n
  case read =>
    intro u v b addr read kept
    rw [State.busRead_frame read]
    exact ⟨kept.oam, kept.oam2, kept.vram, kept.scanline, kept.dot⟩
  case write =>
    intro u addr d kept
    rcases u.busWrite_cases addr d with ⟨-, wrote⟩ | ⟨-, -, wrote⟩ | ⟨-, wrote⟩ <;> rw [wrote]
    · exact kept
    · exact Ppu.registerWrite_keeps kept _ _ _
    · exact kept
  case store =>
    intro u addr d kept
    rcases u.busWrite_cases addr d with ⟨-, wrote⟩ | ⟨-, -, wrote⟩ | ⟨-, wrote⟩ <;> rw [wrote]
    · exact ⟨Memory.write_wf kept.1 _ _, Memory.write_below kept.2 (Nat.mod_lt _ (by decide)) _⟩
    · exact kept
    · exact kept

/-- What every step leaves of the rest of the machine, and what it may append to the anomaly log (R23, R24, R26, R304). -/
structure StepFrame (s t : State) : Prop where
  faulted : t.faulted = s.faulted
  irqLine : t.irqLine = s.irqLine
  cart : t.cart = s.cart
  anomalies : t.anomalies = s.anomalies ∨
    ∃ pc op, t.anomalies = s.anomalies ++ [(pc, op)] ∧ op ∈ unassignedOpcodes

theorem StepFrame.ofTick {s t : State} {n : Nat} (h : StepFrame s t) : StepFrame s (t.tick n) :=
  ⟨h.faulted, h.irqLine, h.cart, h.anomalies⟩

theorem interruptEntry_stepFrame {s t : State} {vector : Word} (which : vector = 0xFFFA ∨ vector = 0xFFFE)
    (h : interruptEntry vector s = .next t) : StepFrame s t := by
  rw [interruptEntryEffect s vector which] at h
  cases h
  exact ⟨rfl, rfl, rfl, .inl rfl⟩

theorem Instr.eq_unassigned {i : Instr} (h : i.operation = .unassigned) : ∃ op, i = .unassigned op := by
  cases i
  case unassigned op => exact ⟨op, rfl⟩
  all_goals cases h

theorem exec_stepFrame {i : Instr} {s t : State} (wf : i.wf = true) (h : exec i s = .next t) : StepFrame s t := by
  have frame := exec_consoleFrame h
  refine ⟨frame.faulted, frame.irqLine, frame.cart, ?_⟩
  by_cases unassigned : i.operation = .unassigned
  · obtain ⟨op, rfl⟩ := Instr.eq_unassigned unassigned
    rw [(unassignedResult op).2 s] at h
    cases h
    exact .inr ⟨_, op, rfl, (Instr.wf_iff _).1 wf op rfl⟩
  · exact .inl (frame.anomalies unassigned)

theorem step_frame {s t : State} (h : step s = .next t) : StepFrame s t := by
  obtain ⟨-, u, rfl, nmi | irq | ⟨i, s1, fetched, ran⟩⟩ := step_next h
  · obtain ⟨faulted, irqLine, cart, anomalies⟩ := interruptEntry_stepFrame (.inl rfl) nmi
    exact StepFrame.ofTick ⟨faulted, irqLine, cart, anomalies⟩
  · exact (interruptEntry_stepFrame (.inr rfl) irq).ofTick
  · obtain ⟨faulted, irqLine, cart, anomalies⟩ := exec_stepFrame (State.fetchInstr_wf fetched) ran
    rcases s.fetchInstr_cases (P := fun _ => True) trivial (fun _ _ _ _ _ _ => trivial) with
      ⟨j, v, ok, reads, -⟩ | ⟨e, v, k, failed, -⟩
    · rw [ok] at fetched
      cases fetched
      exact StepFrame.ofTick ⟨faulted.trans reads.faulted, irqLine.trans reads.irqLine, cart.trans reads.cart,
        reads.anomalies ▸ anomalies⟩
    · rw [failed] at fetched
      cases fetched

/-- Settles O14: the frame of a step, and what no access or tick of the PPU reaches. -/
theorem stepKeepsCartridgeAndInputs : Obligations.StepKeepsCartridgeAndInputs := by
  unfold Obligations.StepKeepsCartridgeAndInputs
  intro s t h
  have frame := step_frame h
  obtain ⟨raceWindow, oam2⟩ := step_ppuInputs h
  exact ⟨frame.cart, frame.irqLine, raceWindow, oam2, frame.faulted⟩

/-- Settles O9: the cartridge's stores do not change, and bus accesses and ticks keep the others. -/
theorem stepKeepsInvariant : Obligations.StepKeepsInvariant := by
  unfold Obligations.StepKeepsInvariant
  intro s t ⟨ram, prg, chr, oam, oam2, vram, scanline, dot⟩ h
  obtain ⟨ppu, ram'⟩ := step_kept h ⟨oam, oam2, vram, scanline, dot⟩ ram
  have cart := (step_frame h).cart
  exact ⟨ram', cart ▸ prg, cart ▸ chr, ppu.oam, ppu.oam2, ppu.vram, ppu.scanline, ppu.dot⟩

/-- Settles O15: only an unassigned instruction logs, and a fetched one is of the table. -/
theorem anomalyLogOnlyGrows : Obligations.AnomalyLogOnlyGrows := by
  unfold Obligations.AnomalyLogOnlyGrows
  refine ⟨fun s t h => (step_frame h).anomalies, fun s t h => ?_⟩
  rw [systemResetEffect s] at h
  cases h
  rfl

/-! ## Where a step stops -/

/-- No instruction is refused: each class answers a next state or the fault of a bus read. -/
theorem exec_not_refused (i : Instr) (s : State) (r : Refusal) : exec i s ≠ .refused r := by
  intro h
  cases exec_class i with
  | read mode base extra f _ arm =>
    rw [arm] at h
    obtain ⟨_, -, ⟨_, _, -, next⟩ | ⟨_, -, fault⟩⟩ := readOp_cases mode base extra f s
    · rw [next] at h; cases h
    · rw [fault] at h; cases h
  | immediate imm f _ arm => rw [arm] at h; cases h
  | store mode base reg _ arm =>
    obtain ⟨_, -, next⟩ := storeOp_eq mode base reg s
    rw [arm, next] at h; cases h
  | modify mode base f _ arm =>
    rw [arm] at h
    obtain ⟨_, -, ⟨_, _, -, next⟩ | ⟨_, -, fault⟩⟩ := rmwOp_cases mode base f s
    · rw [next] at h; cases h
    · rw [fault] at h; cases h
  | accumulator f _ _ arm => rw [arm] at h; cases h
  | branch rel flag expected _ arm =>
    obtain ⟨_, _, next, -⟩ := branchOp_next (flag s.flags) expected rel s
    rw [arm, next] at h; cases h
  | indirect ptr _ arm =>
    rw [arm] at h
    rcases jumpIndirect_cases ptr s with ⟨_, _, _, _, -, -, jump⟩ | ⟨_, jump, -⟩
    · rw [jump] at h; cases h
    · rw [jump] at h; cases h
  | plain arm =>
    obtain ⟨_, next, -⟩ := arm s
    rw [next] at h; cases h

theorem tickAfter_refused {before : State} {o : Host.Outcome State Fault Refusal} {r : Refusal}
    (h : tickAfter before o = .refused r) : o = .refused r := by
  cases o <;> cases h
  rfl

theorem step_not_refused (s : State) (r : Refusal) : step s ≠ .refused r := by
  intro h
  unfold step at h
  split at h
  · cases h
  · split at h
    · have entry := tickAfter_refused h
      rw [interruptEntryEffect _ nmiVector (.inl rfl)] at entry
      cases entry
    · split at h
      · have entry := tickAfter_refused h
        rw [interruptEntryEffect _ irqVector (.inr rfl)] at entry
        cases entry
      · split at h
        · exact exec_not_refused _ _ _ (tickAfter_refused h)
        · cases h

/-- A bus read that fails does so as `RaisesAt` says, at PPUDATA (R62). -/
theorem State.busRead_error {u : State} {addr : Word} {e : Fault} (failed : u.busRead addr = .error e) :
    u.RaisesAt e ∧ isPpuData addr := by
  rcases u.busRead_cases addr with ⟨_, _, read⟩ | ⟨e', raised, raises, window⟩
  · rw [failed] at read
    cases read
  · rw [failed] at raised
    cases raised
    exact ⟨raises, window⟩

theorem Ppu.address_toNat (p : Ppu) : p.address.toNat = p.v.toNat % 0x4000 := by
  simp [Ppu.address]

/-- The fault of a read made in `u`, which differs from `s` by reads and PC, and the machine it leaves (R24, R62). -/
theorem State.RaisesAt.stops {s u : State} {e : Fault} (raises : u.RaisesAt e) (reads : (s.setPc u.pc).Reads u) :
    s.cart.chrUnits = 0 ∧
      ∃ (a : Word) (t : State), e = .mapperOutOfRange a t ∧ a.toNat = t.ppu.v.toNat % 0x4000 ∧ a.toNat < 0x2000 ∧
        t = { s with pc := t.pc, ppu := t.ppu, draws := t.draws, faulted := some (.mapperOutOfRange a) } ∧
        step t = .fault e := by
  refine ⟨reads.cart ▸ raises.noChr, ?_⟩
  obtain ⟨a, t, rfl, rfl, ppu, left⟩ := raises.left reads
  have address : (u.ppu.address.setWidth 16).toNat = u.ppu.address.toNat :=
    BitVec.toNat_setWidth_of_le (by decide)
  have faulted : t.faulted = some (.mapperOutOfRange (u.ppu.address.setWidth 16)) := by rw [left]
  have pc : t.pc = u.pc := by rw [left]; rfl
  refine ⟨_, t, rfl, ?_, address ▸ raises.below, ?_, ?_⟩
  · rw [address, ppu, Ppu.address_toNat]
  · rw [pc]
    exact left
  · rw [step_of_faulted faulted, State.raise_faulted faulted]

/-- Settles O18: the fault is that of a fetch, of the operand read or of a pointer byte, each a bus read. -/
theorem faultsOnlyWithoutChr : Obligations.FaultsOnlyWithoutChr := by
  unfold Obligations.FaultsOnlyWithoutChr
  intro s unfaulted
  refine ⟨step_not_refused s, fun r stopped => ?_⟩
  obtain ⟨nmi, irq, source⟩ := step_fault unfaulted stopped
  refine ⟨nmi, irq, ?_⟩
  rcases s.fetchInstr_cases (P := fun _ => True) trivial (fun _ _ _ _ _ _ => trivial) with
    ⟨i, s1, fetched, reads, -⟩ | ⟨e, u, k, failed, reads, pc, few, error⟩
  · rcases source with failed | ⟨j, s1', fetched', ran⟩
    · rw [fetched] at failed
      cases failed
    · rw [fetched] at fetched'
      cases fetched'
      obtain ⟨u, addr, more, error, access⟩ := exec_fault ran
      obtain ⟨raises, window⟩ := State.busRead_error error
      obtain ⟨noChr, left⟩ := raises.stops (s := s) (reads.ofPc (more.pc ▸ more))
      refine ⟨noChr, left, .inr ⟨i, s1, fetched, ran, ?_⟩⟩
      rcases access with ⟨mode, target, readMode, resolved, rfl⟩ | ⟨ptr, jump, low | high⟩
      · exact .inl ⟨mode, target, s1, readMode, resolved, window⟩
      · exact .inr ⟨ptr, jump, .inl (low ▸ window)⟩
      · exact .inr ⟨ptr, jump, .inr (high ▸ window)⟩
  · obtain rfl : r = e := by
      rcases source with failed' | ⟨j, s1, fetched, -⟩
      · rw [failed] at failed'
        cases failed'
        rfl
      · rw [failed] at fetched
        cases fetched
    obtain ⟨raises, window⟩ := State.busRead_error error
    obtain ⟨noChr, left⟩ := raises.stops reads
    exact ⟨noChr, left, .inl ⟨failed, k, few, pc ▸ window⟩⟩

/-- Settles O17: with CHR nothing is left that stops a step, and a step leaves `faulted` and the cartridge. -/
theorem stepCompletesWithChr : Obligations.StepCompletesWithChr := by
  unfold Obligations.StepCompletesWithChr
  intro s ⟨unfaulted, chr⟩
  obtain ⟨notRefused, stops⟩ := faultsOnlyWithoutChr s unfaulted
  cases stepped : step s with
  | next t =>
    have frame := step_frame stepped
    exact ⟨t, rfl, frame.faulted.trans unfaulted, frame.cart ▸ chr⟩
  | fault r =>
    obtain ⟨-, -, noChr, -⟩ := stops r stepped
    omega
  | refused r => exact absurd stepped (notRefused r)

end Sys2Proof.Machine
end

section
/-! PROOF. The loader's contract (70_reset_and_hazards.md R365, R366). -/

namespace Sys2Proof.Machine

theorem loadCartridge_short {file : List Byte} (short : file.length < 16) : loadCartridge file = .error .truncated := by
  unfold loadCartridge
  split
  · simp only [List.length_cons] at short
    omega
  · rfl

/-- The load check of a file that has a header, by the header's bytes (R365, R366). -/
theorem loadCartridge_header {file : List Byte} (long : 16 ≤ file.length) : loadCartridge file =
    if file.getD 0 0 ≠ 0x4E ∨ file.getD 1 0 ≠ 0x45 ∨ file.getD 2 0 ≠ 0x53 ∨ file.getD 3 0 ≠ 0x1A then .error .badMagic
    else if (file.drop 16).length <
      trainerLength (file.getD 6 0) + 16384 * (file.getD 4 0).toNat + 8192 * (file.getD 5 0).toNat then .error .truncated
    else if mapperId (file.getD 6 0) (file.getD 7 0) ≠ 0 then
      .error (.unsupportedMapper (mapperId (file.getD 6 0) (file.getD 7 0)))
    else match prgBanksOf (file.getD 4 0) with
      | some banks => .ok (cartridgeOf banks (file.getD 4 0).toNat (file.getD 5 0).toNat
          ((file.drop 16).drop (trainerLength (file.getD 6 0))))
      | none => .error (.unsupportedPrg (file.getD 4 0)) := by
  match file, long with
  | _ :: _ :: _ :: _ :: _ :: _ :: _ :: _ :: _ :: _ :: _ :: _ :: _ :: _ :: _ :: _ :: _, _ => rfl

/-- What a file must be to load as `c` (R365, R366). -/
structure Loads (file : List Byte) (c : Cartridge) (banks : PrgBanks) : Prop where
  header : 16 ≤ file.length
  magic : file.getD 0 0 = 0x4E ∧ file.getD 1 0 = 0x45 ∧ file.getD 2 0 = 0x53 ∧ file.getD 3 0 = 0x1A
  fits : trainerLength (file.getD 6 0) + 16384 * (file.getD 4 0).toNat + 8192 * (file.getD 5 0).toNat ≤
    (file.drop 16).length
  mapper : mapperId (file.getD 6 0) (file.getD 7 0) = 0
  prg : prgBanksOf (file.getD 4 0) = some banks
  cartridge : c = cartridgeOf banks (file.getD 4 0).toNat (file.getD 5 0).toNat
    ((file.drop 16).drop (trainerLength (file.getD 6 0)))

theorem loadCartridge_iff (file : List Byte) (c : Cartridge) :
    loadCartridge file = .ok c ↔ ∃ banks, Loads file c banks := by
  constructor
  · intro loaded
    rcases Nat.lt_or_ge file.length 16 with short | long
    · rw [loadCartridge_short short] at loaded
      cases loaded
    rw [loadCartridge_header long] at loaded
    split at loaded
    · cases loaded
    next magic =>
    split at loaded
    · cases loaded
    next fits =>
    split at loaded
    · cases loaded
    next mapper =>
    split at loaded
    · next banks prg =>
      cases loaded
      exact ⟨banks, long, by simpa only [not_or, not_not] using magic, Nat.le_of_not_lt fits, not_not.1 mapper, prg, rfl⟩
    · cases loaded
  · rintro ⟨banks, header, ⟨magic0, magic1, magic2, magic3⟩, fits, mapper, prg, rfl⟩
    rw [loadCartridge_header header, if_neg (by simp only [magic0, magic1, magic2, magic3]; simp),
      if_neg (Nat.not_lt.2 fits), if_neg (not_not.2 mapper), prg]

theorem prgBanksOf_isSome (units : Byte) : (∃ banks, prgBanksOf units = some banks) ↔ units = 1 ∨ units = 2 := by
  unfold prgBanksOf
  split
  · next one => exact ⟨fun _ => .inl one, fun _ => ⟨_, rfl⟩⟩
  · next one =>
    split
    · next two => exact ⟨fun _ => .inr two, fun _ => ⟨_, rfl⟩⟩
    · next two => exact ⟨nofun, fun either => absurd either (not_or.2 ⟨one, two⟩)⟩

theorem prgLength_of_prgBanksOf {units : Byte} {banks : PrgBanks} (h : prgBanksOf units = some banks) {c : Cartridge}
    (kind : c.prgBanks = banks) : c.prgLength = 16384 * units.toNat := by
  unfold prgBanksOf at h
  unfold Cartridge.prgLength
  split at h
  · next one => cases h; rw [kind, one]; rfl
  · split at h
    · next two => cases h; rw [kind, two]; rfl
    · cases h

/-- A store of `n` bytes of a file from `start` on reads them. -/
theorem Memory.read_ofBytes_take (file : List Byte) (start : Nat) {n k : Nat} (h : k < n) :
    (Memory.ofBytes 0 ((file.drop start).take n)).read k = file.getD (start + k) 0 := by
  have read := Memory.read_ofBytes 0 ((file.drop start).take n) k
  rw [Nat.zero_add] at read
  rw [read]
  simp [List.getD_eq_getElem?_getD, h, List.getElem?_drop, Memory.unlisted]

/-- Settles O13: the checks of `loadCartridge` are the conditions, and its stores are stretches of the file. -/
theorem loaderContract : Obligations.LoaderContract := by
  unfold Obligations.LoaderContract
  intro file
  dsimp only
  refine ⟨⟨?accepts, ?loads⟩, ?contents⟩
  case accepts =>
    rintro ⟨c, loaded⟩
    obtain ⟨banks, header, ⟨magic0, magic1, magic2, magic3⟩, fits, mapper, prg, -⟩ := (loadCartridge_iff file c).1 loaded
    rw [List.length_drop, trainerLength] at fits
    refine ⟨header, ?_, by omega, mapper, (prgBanksOf_isSome _).1 ⟨banks, prg⟩⟩
    rw [magic0, magic1, magic2, magic3]
  case loads =>
    rintro ⟨header, magic, fits, mapper, units⟩
    obtain ⟨banks, prg⟩ := (prgBanksOf_isSome _).2 units
    simp only [List.cons.injEq, and_true] at magic
    refine ⟨_, (loadCartridge_iff file _).2 ⟨banks, header, magic, ?_, mapper, prg, rfl⟩⟩
    rw [List.length_drop, trainerLength]
    omega
  case contents =>
    intro c loaded
    obtain ⟨banks, -, -, -, -, prg, rfl⟩ := (loadCartridge_iff file c).1 loaded
    refine ⟨prgLength_of_prgBanksOf prg rfl, rfl, fun k within => ?_, fun k within => ?_⟩
    · rw [cartridgeOf, List.drop_drop]
      exact Memory.read_ofBytes_take file _ within
    · rw [cartridgeOf, List.drop_drop, List.drop_drop]
      exact Memory.read_ofBytes_take file _ within

end Sys2Proof.Machine
end
